-- ==== Sys2Proof/Word.lean ====
section
/-! DEFINITION. The word types of the libflate bit-stream core (10_state.md R22, R27, R30; 30_encoding.md R60, R65). -/

namespace Sys2Proof

/-- A 32-bit command word, response word or accumulator (R6, R60, R65). -/
abbrev Word := BitVec 32

/-- A 16-bit value operand, read datum or emission chunk (R6 `VALUE_BITS`). -/
abbrev Half := BitVec 16

/-- A byte of a stream, a status or fault code (R10, R30, R66). -/
abbrev Byte := BitVec 8

end Sys2Proof
end

