-- ==== Sys2Proof/Syntax.lean ====
section
/-! DEFINITION. The commands of `LFBIT-CMD` version 1 (30_encoding.md R62), one constructor per row of
spec/opcode_table.json. -/

namespace Sys2Proof

/-- The two units of the block (R1); `OPC[7:4]` selects one (R62). -/
inductive UnitId where
  | writer
  | reader
deriving DecidableEq, Repr

/-- A command. A width operand is the number `zext(W)` (R61), added to and compared with the counts; a value operand is
16 bits of which W.BITS takes the low `width` (R61, R91). -/
inductive Instr where
  /-- `W.NEW`: wrap a sink (R131). -/
  | wNew
  /-- `W.BIT b`: write one bit (R85). -/
  | wBit (b : Bool)
  /-- `W.BITS w, v`: write the low `w` bits of `v` (R81). -/
  | wBits (w : Nat) (v : Half)
  /-- `W.FLUSH`: drain the buffer and forward a flush (R86). -/
  | wFlush
  /-- `W.INNER`: expose the sink (R132). -/
  | wInner
  /-- `W.UNWRAP`: reclaim the sink (R133). -/
  | wUnwrap
  /-- `R.NEW`: wrap a source (R134). -/
  | rNew
  /-- `R.BIT`: read one bit (R107). -/
  | rBit
  /-- `R.BITS w`: read `w` bits (R106). -/
  | rBits (w : Nat)
  /-- `R.PEEK w`: look at the next `w` bits (R105). -/
  | rPeek (w : Nat)
  /-- `R.SKIP w`: discard `w` buffered bits (R108). -/
  | rSkip (w : Nat)
  /-- `R.RESET`: drop the buffer (R110). -/
  | rReset
  /-- `R.INNER`: expose the source (R135). -/
  | rInner
  /-- `R.UNWRAP`: reclaim the source (R136). -/
  | rUnwrap
deriving DecidableEq, Repr

/-- The unit that executes a command (R62). -/
def Instr.unit : Instr → UnitId
  | .wNew => .writer
  | .wBit _ => .writer
  | .wBits _ _ => .writer
  | .wFlush => .writer
  | .wInner => .writer
  | .wUnwrap => .writer
  | .rNew => .reader
  | .rBit => .reader
  | .rBits _ => .reader
  | .rPeek _ => .reader
  | .rSkip _ => .reader
  | .rReset => .reader
  | .rInner => .reader
  | .rUnwrap => .reader

end Sys2Proof
end

