-- ==== Sys2Proof/WellFormed.lean ====
section
/-! DEFINITION. Which terms of `Instr` are commands: those a command word can carry (30_encoding.md R60, R61). The only
operand a term can hold that no word can is a width of more than 5 bits. -/

namespace Sys2Proof

/-- The `W` field is 5 bits: a width operand is 0 to 31 (R60, R61). A width in this range that is outside the command's
own legal range is well formed: the word decodes, and the command faults `WIDTH_RANGE` (R61). -/
abbrev WidthEncodable (w : Nat) : Prop := w < 32

/-- The command has an encoding. -/
@[reducible] def Instr.WellFormed : Instr → Prop
  | .wNew => True
  | .wBit _ => True
  | .wBits w _ => WidthEncodable w
  | .wFlush => True
  | .wInner => True
  | .wUnwrap => True
  | .rNew => True
  | .rBit => True
  | .rBits w => WidthEncodable w
  | .rPeek w => WidthEncodable w
  | .rSkip w => WidthEncodable w
  | .rReset => True
  | .rInner => True
  | .rUnwrap => True

/-- `Instr.WellFormed` as a Bool. -/
def Instr.wellFormed : Instr → Bool
  | .wNew => true
  | .wBit _ => true
  | .wBits w _ => decide (WidthEncodable w)
  | .wFlush => true
  | .wInner => true
  | .wUnwrap => true
  | .rNew => true
  | .rBit => true
  | .rBits w => decide (WidthEncodable w)
  | .rPeek w => decide (WidthEncodable w)
  | .rSkip w => decide (WidthEncodable w)
  | .rReset => true
  | .rInner => true
  | .rUnwrap => true

/-- The Bool says what the Prop says. -/
@[simp] theorem Instr.wellFormed_iff (i : Instr) : i.wellFormed = true ↔ i.WellFormed := by
  cases i <;> simp [Instr.wellFormed, Instr.WellFormed]

end Sys2Proof
end

