-- ==== Sys2Proof/Decode.lean ====
section
/-! DEFINITION. Command words: the field layout (30_encoding.md R60), the opcode map (R62), the decoder, total on every
32-bit word (R68), and the encoder. A command word crosses the host interface as one 32-bit value (R60, D36), so no
byte order enters. -/

namespace Sys2Proof

/-! ### Fields (R60) -/

/-- `OPC`, bits 31:24. -/
def opcField (word : Word) : Byte := word.extractLsb' 24 8

/-- `RSV`, bits 23:21. -/
def rsvField (word : Word) : BitVec 3 := word.extractLsb' 21 3

/-- `W`, bits 20:16. -/
def wField (word : Word) : BitVec 5 := word.extractLsb' 16 5

/-- `V`, bits 15:0. -/
def vField (word : Word) : Half := word.extractLsb' 0 16

/-- The command word `OPC << 24 | W << 16 | V` with `RSV = 0` (R62). -/
def packWord (opc : Byte) (w : BitVec 5) (v : Half) : Word :=
  (opc.setWidth 32 <<< 24) ||| (w.setWidth 32 <<< 16) ||| v.setWidth 32

/-! ### Opcode map (R62) -/

/-- The mnemonics of R62, without operands. -/
inductive Opcode where
  | wNew | wBit | wBits | wFlush | wInner | wUnwrap
  | rNew | rBit | rBits | rPeek | rSkip | rReset | rInner | rUnwrap
deriving DecidableEq, Repr

/-- The `OPC` column of R62. -/
def Opcode.bits : Opcode → Byte
  | .wNew => 0x10#8
  | .wBit => 0x11#8
  | .wBits => 0x12#8
  | .wFlush => 0x13#8
  | .wInner => 0x14#8
  | .wUnwrap => 0x15#8
  | .rNew => 0x20#8
  | .rBit => 0x21#8
  | .rBits => 0x22#8
  | .rPeek => 0x23#8
  | .rSkip => 0x24#8
  | .rReset => 0x25#8
  | .rInner => 0x26#8
  | .rUnwrap => 0x27#8

/-- The assigned opcodes, in the order of R62. -/
def Opcode.all : List Opcode :=
  [.wNew, .wBit, .wBits, .wFlush, .wInner, .wUnwrap,
   .rNew, .rBit, .rBits, .rPeek, .rSkip, .rReset, .rInner, .rUnwrap]

/-- The row of R62 an `OPC` value names; every other value is unassigned (R64). -/
def Opcode.ofBits (opc : Byte) : Option Opcode := Opcode.all.find? (fun op => op.bits == opc)

/-- The `W` column of R62: whether the command takes a width (elsewhere `W` must be 0). -/
def Opcode.takesWidth : Opcode → Bool
  | .wBits | .rBits | .rPeek | .rSkip => true
  | .wNew | .wBit | .wFlush | .wInner | .wUnwrap | .rNew | .rBit | .rReset | .rInner | .rUnwrap => false

/-- The `V` column of R62: the bits of `V` the command takes; the others must be 0 (R63). -/
def Opcode.valueMask : Opcode → Half
  | .wBits => 0xFFFF#16
  | .wBit => 0x0001#16
  | .wNew | .wFlush | .wInner | .wUnwrap | .rNew | .rBit | .rBits | .rPeek | .rSkip | .rReset | .rInner | .rUnwrap =>
    0x0000#16

/-- The command of a row with its operands (R61). -/
def Opcode.build (op : Opcode) (w : BitVec 5) (v : Half) : Instr :=
  match op with
  | .wNew => .wNew
  | .wBit => .wBit (v.getLsbD 0)
  | .wBits => .wBits w.toNat v
  | .wFlush => .wFlush
  | .wInner => .wInner
  | .wUnwrap => .wUnwrap
  | .rNew => .rNew
  | .rBit => .rBit
  | .rBits => .rBits w.toNat
  | .rPeek => .rPeek w.toNat
  | .rSkip => .rSkip w.toNat
  | .rReset => .rReset
  | .rInner => .rInner
  | .rUnwrap => .rUnwrap

/-- The unit `OPC[7:4]` selects (R62: 1 writer, 2 reader); no other value selects one. -/
def selectUnit (word : Word) : Option UnitId :=
  match (opcField word).toNat / 16 with
  | 1 => some .writer
  | 2 => some .reader
  | _ => none

/-! ### Decoder (R68) -/

/-- Why a word is `Illegal` (R63, R64): the first check of R68 it fails. -/
inductive IllegalReason where
  /-- `OPC` is in no row of R62 (R64). -/
  | unassignedOpcode
  /-- `RSV` is not 0 (R63). -/
  | reservedRsv
  /-- `W` is not 0 where it must be (R63). -/
  | reservedW
  /-- `V`, or `V[15:1]` of W.BIT, is not 0 where it must be (R63). -/
  | reservedV
deriving DecidableEq, Repr

/-- What the decoder answers: a command, or `Illegal` with the reason. -/
inductive Decoded where
  | instr (i : Instr)
  | illegal (why : IllegalReason)
deriving DecidableEq, Repr

/-- The field checks of R68 for a word whose opcode is assigned. -/
def decodeFields (op : Opcode) (rsv : BitVec 3) (w : BitVec 5) (v : Half) : Decoded :=
  if rsv ≠ 0#3 then .illegal .reservedRsv
  else if op.takesWidth = false ∧ w ≠ 0#5 then .illegal .reservedW
  else if v &&& ~~~ op.valueMask ≠ 0#16 then .illegal .reservedV
  else .instr (op.build w v)

/-- `decode(word)` of R68. -/
def decode (word : Word) : Decoded :=
  match Opcode.ofBits (opcField word) with
  | none => .illegal .unassignedOpcode
  | some op => decodeFields op (rsvField word) (wField word) (vField word)

/-! ### Encoder (R62) -/

/-- The row of R62 a command belongs to. -/
def Instr.opcode : Instr → Opcode
  | .wNew => .wNew
  | .wBit _ => .wBit
  | .wBits _ _ => .wBits
  | .wFlush => .wFlush
  | .wInner => .wInner
  | .wUnwrap => .wUnwrap
  | .rNew => .rNew
  | .rBit => .rBit
  | .rBits _ => .rBits
  | .rPeek _ => .rPeek
  | .rSkip _ => .rSkip
  | .rReset => .rReset
  | .rInner => .rInner
  | .rUnwrap => .rUnwrap

/-- The number in the `W` field of a command: its width operand, else 0. -/
def Instr.widthOperand : Instr → Nat
  | .wBits w _ => w
  | .rBits w => w
  | .rPeek w => w
  | .rSkip w => w
  | .wNew | .wBit _ | .wFlush | .wInner | .wUnwrap | .rNew | .rBit | .rReset | .rInner | .rUnwrap => 0

/-- The `V` field of a command: its value or its bit, else 0. -/
def Instr.valueOperand : Instr → Half
  | .wBits _ v => v
  | .wBit b => if b then 1#16 else 0#16
  | .wNew | .wFlush | .wInner | .wUnwrap | .rNew | .rBit | .rBits _ | .rPeek _ | .rSkip _ | .rReset | .rInner
  | .rUnwrap => 0#16

/-- The command word of a well-formed command (R62). -/
def encode (i : Instr) : Word := packWord i.opcode.bits (BitVec.ofNat 5 i.widthOperand) i.valueOperand

/-! ### The rows of spec/opcode_table.json -/

/-- A row's `match` and `mask`: a word belongs to the row when its masked bits are the pattern. -/
structure TableRow where
  pattern : Word
  mask : Word
deriving DecidableEq, Repr

/-- The row of spec/opcode_table.json, copied from its `match` and `mask`, independently of the field layout above. -/
def Opcode.tableRow : Opcode → TableRow
  | .wNew => { pattern := 0x10000000#32, mask := 0xFFFFFFFF#32 }
  | .wBit => { pattern := 0x11000000#32, mask := 0xFFFFFFFE#32 }
  | .wBits => { pattern := 0x12000000#32, mask := 0xFFE00000#32 }
  | .wFlush => { pattern := 0x13000000#32, mask := 0xFFFFFFFF#32 }
  | .wInner => { pattern := 0x14000000#32, mask := 0xFFFFFFFF#32 }
  | .wUnwrap => { pattern := 0x15000000#32, mask := 0xFFFFFFFF#32 }
  | .rNew => { pattern := 0x20000000#32, mask := 0xFFFFFFFF#32 }
  | .rBit => { pattern := 0x21000000#32, mask := 0xFFFFFFFF#32 }
  | .rBits => { pattern := 0x22000000#32, mask := 0xFFE0FFFF#32 }
  | .rPeek => { pattern := 0x23000000#32, mask := 0xFFE0FFFF#32 }
  | .rSkip => { pattern := 0x24000000#32, mask := 0xFFE0FFFF#32 }
  | .rReset => { pattern := 0x25000000#32, mask := 0xFFFFFFFF#32 }
  | .rInner => { pattern := 0x26000000#32, mask := 0xFFFFFFFF#32 }
  | .rUnwrap => { pattern := 0x27000000#32, mask := 0xFFFFFFFF#32 }

/-- The word belongs to the row. -/
def TableRow.matches (row : TableRow) (word : Word) : Prop := word &&& row.mask = row.pattern

/-- The command the decoder reads from a word numbered as spec/opcode_table.json numbers it: bit 0 is bit 0 of the
command word, and the bits above `nbits` are 0 (assumption log 21). -/
def decodeTableWord (nbits w : Nat) : Option Instr :=
  match decode (BitVec.ofNat 32 (w % 2 ^ nbits)) with
  | .instr i => some i
  | .illegal _ => none

end Sys2Proof
end

