-- ==== Sys2Proof/Config.lean ====
section
/-! DEFINITION. The implementation parameters of 00_scope.md R6: the fixed ones as constants, and the open parameter
`READER_FAIL_STATE` as a field. `SINK_FAIL_RETAINS` is a property of the sink (R6, R49) and stands in the sink's answers
(Machine/State.lean). -/

namespace Sys2Proof

/-- The open parameter `READER_FAIL_STATE` (41_reader.md R112, D11): what a failed fill leaves. -/
inductive ReaderFailState where
  /-- The shift and the decrement of the fill stand; the default. -/
  | stepOrder
  /-- As `stepOrder`, and the reader is poisoned until R.RESET or R.NEW. -/
  | poison
deriving DecidableEq, Repr

/-- The parameters a model takes as arguments (R6). They stand in `State` as a field that nothing writes, so every claim
over all states holds for both values (assumption log 3). -/
structure Config where
  readerFailState : ReaderFailState
deriving DecidableEq, Repr

namespace Config

/-- The value R6 and D11 name as the default. -/
def default : Config := { readerFailState := .stepOrder }

/-- The name of the command set (R1). -/
def commandSet : String := "LFBIT-CMD"

/-- The version of the command set (R1). -/
def commandSetVersion : Nat := 1

/-- `W_MAX_WIDTH`: the widest writer field (R6). -/
@[simp, reducible] def wMaxWidth : Nat := 15

/-- `R_MAX_WIDTH`: the widest reader field (R6). -/
@[simp, reducible] def rMaxWidth : Nat := 16

/-- `WACC_BITS`: the writer accumulator's width (R6, D8). -/
@[simp, reducible] def waccBits : Nat := 32

/-- `RACC_BITS`: the reader accumulator's width (R6, D8). -/
@[simp, reducible] def raccBits : Nat := 32

/-- `EMIT_THRESHOLD`: the fill count that triggers an emission (R6, R93). -/
@[simp, reducible] def emitThreshold : Nat := 16

/-- `EMIT_CHUNK`: the bits of one emission (R6, R93). -/
@[simp, reducible] def emitChunk : Nat := 16

/-- `FILL_POS`: the bit position where a fetched byte is inserted (R6). -/
@[simp, reducible] def fillPos : Nat := 24

end Config

end Sys2Proof
end

