-- ==== Sys2Proof/Machine/State.lean ====
section
/-! DEFINITION. The state of the block (10_state.md R22, R27, R30) and of the agents around it (00_scope.md R14): the
sink, the source and the host. Plain data; the list with reset values is INVENTORY.md, '## State'. -/

namespace Sys2Proof.Machine

open Sys2Proof

/-! ### Streams -/

/-- A sink transaction (R10, R45). -/
inductive SinkTxn where
  /-- `SinkWrite8(b)`. -/
  | write8 (b : Byte)
  /-- `SinkWrite16LE(h)`. -/
  | write16 (h : Half)
  /-- `SinkFlush()`. -/
  | flush
deriving DecidableEq, Repr

/-- `SINK_FAIL_RETAINS` (R6, R49, D24): which bytes of a failed transaction the sink kept. -/
inductive Retained where
  | nothing
  | firstByte
  | everything
deriving DecidableEq, Repr

/-- An answer of the sink (R45). An `IoError` says what the sink kept, so that every value of the open parameter
`SINK_FAIL_RETAINS` is covered, one transaction at a time (assumption log 4). -/
inductive SinkAnswer where
  | ok
  | ioError (kept : Retained)
deriving DecidableEq, Repr

/-- An answer of the source to `SourceRead8()` (R46). -/
inductive SourceAnswer where
  | byte (b : Byte)
  | endOfStream
  | ioError
deriving DecidableEq, Repr

/-- Who issued a stream transaction: the unit, or the host on an exposed stream (R137). -/
inductive Issuer where
  | unit
  | host
deriving DecidableEq, Repr

/-- A sink transaction that has been answered. -/
structure SinkRecord where
  issuer : Issuer
  txn : SinkTxn
  answer : SinkAnswer
deriving DecidableEq, Repr

/-- A source read that has been answered. -/
structure SourceRecord where
  issuer : Issuer
  answer : SourceAnswer
deriving DecidableEq, Repr

/-- The sink connected to the writer's port (R40, R41, R45). -/
@[ext]
structure SinkPort where
  /-- The answers the sink gives to the next transactions, in order; the list is an oracle input (D27, U10). While it is
  empty a transaction goes unanswered (R162, assumption log 2). -/
  answers : List SinkAnswer
  /-- The transactions answered so far, oldest first (R51). -/
  log : List SinkRecord
  /-- The host may use the sink: the interval from a W.INNER to the next command of the writer (R132, R137). -/
  exposed : Bool
deriving DecidableEq, Repr

/-- The source connected to the reader's port (R40, R42, R46). -/
@[ext]
structure SourcePort where
  /-- The answers the source gives to the next reads, in order; an oracle input (D27, U10). -/
  answers : List SourceAnswer
  /-- The reads answered so far, oldest first (R51). -/
  log : List SourceRecord
  /-- The host may use the source: the interval from an R.INNER to the next command of the reader (R135, R137). -/
  exposed : Bool
deriving DecidableEq, Repr

/-! ### Units -/

/-- The sink transaction the writer's command waits on (R162): the emission of W.BITS or W.BIT (R83), a byte drained by
W.FLUSH, or its flush request (R86). Its operand is in the accumulator, so it is not stored again. -/
inductive WriterWait where
  | emission
  | drain
  | flush
deriving DecidableEq, Repr

/-- A command that reads through Peek (R103), held while its fill waits for the source (R162). -/
inductive ReadCmd where
  | bit
  | bits (w : Nat)
  | peek (w : Nat)
deriving DecidableEq, Repr

/-- The writer unit (R22). -/
@[ext]
structure WriterUnit where
  /-- `W.attached`. -/
  attached : Bool
  /-- `W.acc`: the bits written but not yet emitted, oldest at bit 0 (R23). -/
  acc : Word
  /-- `W.filled`: the count of valid bits in `acc`, 0 to 31. -/
  filled : Nat
  /-- `W.failed`: a sink transaction of this unit failed (R26). -/
  failed : Bool
  /-- The transaction in flight, if a command waits for one (R51, R69, R162; assumption log 6). -/
  busy : Option WriterWait
deriving DecidableEq, Repr

/-- The reader unit (R27). -/
@[ext]
structure ReaderUnit where
  /-- `R.attached`. -/
  attached : Bool
  /-- `R.acc`: the most recently fetched bytes, the newest at bits 31:24 (R28). -/
  acc : Word
  /-- `R.offset`: the count of low-order bits of `acc` already consumed, 0 to 32. -/
  offset : Nat
  /-- `R.poisoned`: a fill failed, in POISON mode (R112). -/
  poisoned : Bool
  /-- The command whose fill waits for the source, if any (R51, R69, R162; assumption log 6). -/
  busy : Option ReadCmd
deriving DecidableEq, Repr

/-! ### Host -/

/-- A response word (R65) with the unit that gave it; `none` for an illegal word that selects no unit (assumption logs 7
and 14). -/
structure Response where
  unit : Option UnitId
  word : Word
deriving DecidableEq, Repr

/-- What the outside world does next (R14). -/
inductive Input where
  /-- The host issues a command word (R60, R69). -/
  | command (word : Word)
  /-- The sink's answer to its next transaction (R45, R162). -/
  | sinkAnswer (a : SinkAnswer)
  /-- The source's answer to its next read (R46, R162). -/
  | sourceAnswer (a : SourceAnswer)
  /-- The host's own transaction on the sink (R137). -/
  | hostSink (t : SinkTxn)
  /-- The host's own read of the source (R137). -/
  | hostSource
  /-- The host connects another sink to the writer's port (R130, R172). -/
  | connectSink (answers : List SinkAnswer)
  /-- The host connects another source to the reader's port (R130, R172). -/
  | connectSource (answers : List SourceAnswer)
  /-- Power-on reset (R170). -/
  | powerOn
deriving DecidableEq, Repr

/-! ### The whole state -/

/-- The state of the block and its surroundings. -/
@[ext]
structure State where
  /-- The parameters (R6); nothing writes them. -/
  config : Config
  /-- The writer unit. -/
  w : WriterUnit
  /-- The reader unit. -/
  r : ReaderUnit
  /-- `FAULT` (R30): 0 is no fault. -/
  fault : Byte
  /-- The sink at the writer's port. -/
  sink : SinkPort
  /-- The source at the reader's port. -/
  source : SourcePort
  /-- What the outside world does next, oldest first: the rest of the program (R21) and the other inputs. -/
  inputs : List Input
  /-- The responses given so far, oldest first (R65). -/
  responses : List Response
deriving DecidableEq, Repr

/-- A reason for the machine to stop. There is none: the spec takes every fault as a latched code and a response (R11,
R155), a next state of the block (assumption log 5). -/
inductive Fault where
deriving DecidableEq, Repr

/-- The inputs the spec gives a model no step for (93_implementation_defined.md, treatment `refuse`). -/
inductive Refusal where
  /-- Raised by an arm of `exec` whose command has no meaning in this model; no arm raises it. Safe: the run stops. -/
  | notModelled (mnemonic : String)
  /-- Raised when a command word is issued to a unit whose previous command has not responded (R69, R180, U12). Safe: no
  claim is made of a host that does it. -/
  | unitBusy (u : UnitId)
  /-- Raised when the host uses a stream that a unit owns outside an INNER interval (R137, U13). Safe: as above. -/
  | streamNotExposed (u : UnitId)
  /-- Raised when the host connects another stream to the port of a unit that owns one (R130: ownership is exclusive;
  assumption log 11). Safe: as above. -/
  | streamOwned (u : UnitId)
deriving DecidableEq, Repr

/-- The outcome of a step. -/
abbrev Result := Host.Outcome State Fault Refusal

/-! ### Reset (R34, R170) -/

/-- The writer at power-on (R34). -/
def WriterUnit.powerOn : WriterUnit := { attached := false, acc := 0#32, filled := 0, failed := false, busy := none }

/-- The reader at power-on (R34). -/
def ReaderUnit.powerOn : ReaderUnit := { attached := false, acc := 0#32, offset := 32, poisoned := false, busy := none }

/-- A port with nothing connected that answers, and nothing done (assumption log 13). -/
def SinkPort.empty : SinkPort := { answers := [], log := [], exposed := false }

/-- As `SinkPort.empty`, for the source. -/
def SourcePort.empty : SourcePort := { answers := [], log := [], exposed := false }

/-- The machine after power-on reset, for given parameters: R34 and R170 for the block, and nothing done by the agents
around it yet (assumption log 13). -/
def State.resetWith (c : Config) : State :=
  { config := c, w := WriterUnit.powerOn, r := ReaderUnit.powerOn, fault := 0#8, sink := SinkPort.empty,
    source := SourcePort.empty, inputs := [], responses := [] }

/-- The machine after power-on reset, `READER_FAIL_STATE` at the default of R6. -/
def State.reset : State := State.resetWith Config.default

/-! ### Updates of one component -/

/-- Replace the writer unit. -/
def State.setW (s : State) (x : WriterUnit) : State := { s with w := x }

/-- Replace the reader unit. -/
def State.setR (s : State) (x : ReaderUnit) : State := { s with r := x }

/-- Replace `FAULT`. -/
def State.setFault (s : State) (x : Byte) : State := { s with fault := x }

/-- Replace the sink. -/
def State.setSink (s : State) (x : SinkPort) : State := { s with sink := x }

/-- Replace the source. -/
def State.setSource (s : State) (x : SourcePort) : State := { s with source := x }

/-- Replace the inputs to come. -/
def State.setInputs (s : State) (x : List Input) : State := { s with inputs := x }

/-- Add one response after those given. -/
def State.pushResponse (s : State) (x : Response) : State := { s with responses := s.responses ++ [x] }

end Sys2Proof.Machine
end

