-- ==== Sys2Proof/Machine/Flags.lean ====
section
/-! DEFINITION. Outcome codes and the order of checks. The block has no condition codes (10_state.md R32): the response
word's status is the only outcome indication (30_encoding.md R65, R66; 60_exceptions.md R152), and the flag-like bits
are the fields `w.failed`, `r.poisoned` and `fault` of State. -/

namespace Sys2Proof.Machine

open Sys2Proof

/-- The status of a response (R66). -/
inductive Status where
  | ok
  | ioError
  | endOfStream
  | fault
deriving DecidableEq, Repr

/-- The `STATUS` code (R66). -/
def Status.code : Status → Byte
  | .ok => 0x00#8
  | .ioError => 0x01#8
  | .endOfStream => 0x02#8
  | .fault => 0x03#8

/-- The faults of R152. -/
inductive FaultCode where
  | illegalCommand
  | notAttached
  | alreadyAttached
  | widthRange
  | headroom
  | skipUnderflow
  | useAfterFailure
  | readerPoisoned
deriving DecidableEq, Repr

/-- The code a fault writes to `FAULT` (R152). -/
def FaultCode.code : FaultCode → Byte
  | .illegalCommand => 0x01#8
  | .notAttached => 0x02#8
  | .alreadyAttached => 0x03#8
  | .widthRange => 0x04#8
  | .headroom => 0x05#8
  | .skipUnderflow => 0x06#8
  | .useAfterFailure => 0x07#8
  | .readerPoisoned => 0x08#8

/-- A response word `STATUS, FCODE, DATA` (R65). -/
def responseWord (st : Status) (fcode : Byte) (data : Half) : Word :=
  (st.code.setWidth 32 <<< 24) ||| (fcode.setWidth 32 <<< 16) ||| data.setWidth 32

/-- One check of R156, steps 2 to 6: it applies or not, and the fault it raises. -/
structure Check where
  applies : Bool
  code : FaultCode
deriving DecidableEq, Repr

/-- The fault of the first check that applies; the rest are not made (R156). -/
def firstFault : List Check → Option FaultCode
  | [] => none
  | c :: rest => if c.applies then some c.code else firstFault rest

/-- A command of a unit that must own a stream: R156 step 3. -/
def notAttachedCheck (attached : Bool) : Check := { applies := !attached, code := .notAttached }

/-- A NEW command: R156 step 3. -/
def alreadyAttachedCheck (attached : Bool) : Check := { applies := attached, code := .alreadyAttached }

/-- The common checks of W.BITS, W.BIT and W.FLUSH after `FAULT` (R80): attachment, then failure (R156 steps 3, 4). -/
def writerDataChecks (s : State) : List Check :=
  [notAttachedCheck s.w.attached, { applies := s.w.failed, code := .useAfterFailure }]

/-- The reader is poisoned and the parameter says that this counts (R100, R154). -/
def readerPoisonedNow (s : State) : Bool := s.config.readerFailState == .poison && s.r.poisoned

/-- The common checks of R.BIT, R.BITS, R.PEEK and R.SKIP after `FAULT` (R100): attachment, then poison (R156 steps 3,
4). -/
def readerDataChecks (s : State) : List Check :=
  [notAttachedCheck s.r.attached, { applies := readerPoisonedNow s, code := .readerPoisoned }]

/-- The width check of R156 step 5: `w` is above the command's range. -/
def widthCheck (w max : Nat) : Check := { applies := decide (w > max), code := .widthRange }

/-- The headroom check of W.BITS, R156 step 6 (R82): `W.filled + w > 32`. -/
def headroomCheck (filled w : Nat) : Check :=
  { applies := decide (filled + w > Config.waccBits), code := .headroom }

/-- The underflow check of R.SKIP, R156 step 6 (R109): `w > 32 - R.offset`. -/
def skipCheck (offset w : Nat) : Check :=
  { applies := decide (w > Config.raccBits - offset), code := .skipUnderflow }

end Sys2Proof.Machine
end

