-- ==== Sys2Proof/Machine/Operands.lean ====
section
/-! DEFINITION. The arithmetic on fields that the command rules use: masks, the field a write appends, the field a read
extracts, the bytes of a 16-bit chunk (00_scope.md R7, R8, R10; 40_writer.md R83; 41_reader.md R101, R104), and the bit
order of the wire (20_memory.md R43). -/

namespace Sys2Proof.Machine

open Sys2Proof

/-- `mask(w) = 2^w - 1` as an `n`-bit number (R8). -/
def mask (n w : Nat) : BitVec n := BitVec.ofNat n (2 ^ w - 1)

/-- The value operand of W.BIT as W.BITS takes it: `zext_16(b)` (R85). -/
def bitValue (b : Bool) : Half := if b then 1#16 else 0#16

/-- The accumulator after an append: `acc | (zext_32(v & mask(w)) << filled)` (R83). -/
def appendField (acc : Word) (filled w : Nat) (v : Half) : Word :=
  acc ||| ((v &&& mask 16 w).setWidth 32 <<< filled)

/-- `W.acc[7:0]`, the byte W.FLUSH drains next (R86). -/
def drainByte (acc : Word) : Byte := acc.extractLsb' 0 8

/-- `W.acc[15:0]`, the chunk an emission carries (R83). -/
def emitChunkOf (acc : Word) : Half := acc.extractLsb' 0 16

/-- `h[7:0]`, the first byte of `SinkWrite16LE(h)` (R10, R44). -/
def lowByte (h : Half) : Byte := h.extractLsb' 0 8

/-- `h[15:8]`, the second byte of `SinkWrite16LE(h)` (R10, R44). -/
def highByte (h : Half) : Byte := h.extractLsb' 8 8

/-- `Extract(w) = (acc >> offset) & mask(w)`, a 16-bit result (R104). -/
def extractField (acc : Word) (offset w : Nat) : Half := ((acc >>> offset) &&& mask 32 w).setWidth 16

/-- The accumulator with a fetched byte inserted: `acc | (zext_32(b) << 24)` (R101). -/
def insertByte (acc : Word) (b : Byte) : Word := acc ||| (b.setWidth 32 <<< Config.fillPos)

/-- The data of R.BIT: 0x0001 if the field is nonzero, else 0x0000 (R67, R107). -/
def boolData (field : Half) : Half := if field ≠ 0#16 then 1#16 else 0#16

/-! ### Bits in wire order (R43) -/

/-- The low `w` bits of a value, bit 0 first: the order in which the wire carries them (R43). -/
def bitsLsb {n : Nat} (w : Nat) (x : BitVec n) : List Bool := (List.range w).map (fun i => x.getLsbD i)

/-- A byte stream as one sequence of bits: bit `k` is bit `k mod 8` of byte `k / 8` (R43). -/
def streamBits (bytes : List Byte) : List Bool := bytes.flatMap (bitsLsb 8)

end Sys2Proof.Machine
end

