-- ==== Sys2Proof/Machine/Ops.lean ====
section
/-! DEFINITION. The operations the commands share: responding and raising a fault (00_scope.md R11, 60_exceptions.md
R155), the ordered checks every command makes (R156), the writer's stream transactions (40_writer.md R83, R84, R86,
R87), and the reader's fill and peek (41_reader.md R101, R103, R112).

A command runs to its response while the stream answers. Where no answer is there, the command waits: the unit holds
the transaction in flight in `busy`, and `runWriter` or `runReader` resumes it when an answer arrives (R162). If the
other unit has latched a fault by then, the command goes no further: it responds FAULT (`endWriterFaulted`,
`endReaderFaulted`; R30, R159, D7; assumption log 8).

THE TRAP ENTRY OF THIS BLOCK is `raiseFault`: it writes `FAULT` and responds, and there is nothing else to save and
nowhere to go (R158); there is no return from it (R159). -/

namespace Sys2Proof.Machine

open Sys2Proof

/-! ### Responses (R11, R65 to R67) -/

/-- `return OK(d)` by a unit (R11). -/
def respondOk (u : UnitId) (data : Half) (s : State) : State :=
  s.pushResponse { unit := some u, word := responseWord .ok 0#8 data }

/-- `return ERR(IO_ERROR)` by a unit (R11, R151). -/
def respondIoError (u : UnitId) (s : State) : State :=
  s.pushResponse { unit := some u, word := responseWord .ioError 0#8 0#16 }

/-- `return ERR(END_OF_STREAM)` by a unit (R11, R151). -/
def respondEndOfStream (u : UnitId) (s : State) : State :=
  s.pushResponse { unit := some u, word := responseWord .endOfStream 0#8 0#16 }

/-- The response of a block whose `FAULT` is latched: status FAULT with the code, data 0 (R155). -/
def respondFault (u : Option UnitId) (s : State) : State :=
  s.pushResponse { unit := u, word := responseWord .fault s.fault 0#16 }

/-- `raise Fault(c)`: latch the code and respond FAULT, nothing else (R11, R155). -/
def raiseFault (u : Option UnitId) (c : FaultCode) (s : State) : State := respondFault u (s.setFault c.code)

/-! ### Issuing a command (R69, R137, R156) -/

/-- A unit has a command that has not responded (R69). -/
def unitIsBusy (u : UnitId) (s : State) : Bool :=
  match u with
  | .writer => s.w.busy.isSome
  | .reader => s.r.busy.isSome

/-- The next command to a unit ends the host's interval on its stream (R137). -/
def closeInterval (u : UnitId) (s : State) : State :=
  match u with
  | .writer => s.setSink { s.sink with exposed := false }
  | .reader => s.setSource { s.source with exposed := false }

/-- A command that has reached its unit: R156 step 1 (a latched fault answers at once, R155), steps 2 to 6 (the first
check that applies raises its fault), step 7 (the command's own effect). -/
def afterChecks (u : Option UnitId) (checks : List Check) (effect : State → State) (s : State) : State :=
  if s.fault ≠ 0#8 then respondFault u s
  else
    match firstFault checks with
    | some c => raiseFault u c s
    | none => effect s

/-- A command issued to a unit (R69, R156). A unit that has not responded to its previous command accepts none: the
model gives such an issue no step (R69, R180, U12). -/
def commandTo (u : UnitId) (checks : List Check) (effect : State → State) (s : State) : Result :=
  if unitIsBusy u s then .refused (.unitBusy u)
  else .next (afterChecks (some u) checks effect (closeInterval u s))

/-! ### Stream records (R41, R42, R49, R50) -/

/-- The sink has answered a transaction. -/
def recordSink (by_ : Issuer) (t : SinkTxn) (a : SinkAnswer) (s : State) : State :=
  s.setSink { s.sink with log := s.sink.log ++ [{ issuer := by_, txn := t, answer := a }] }

/-- The source has answered a read. -/
def recordSource (by_ : Issuer) (a : SourceAnswer) (s : State) : State :=
  s.setSource { s.source with log := s.source.log ++ [{ issuer := by_, answer := a }] }

/-- Replace the answers the sink has ready. -/
def setSinkAnswers (as : List SinkAnswer) (s : State) : State := s.setSink { s.sink with answers := as }

/-- Replace the answers the source has ready. -/
def setSourceAnswers (as : List SourceAnswer) (s : State) : State := s.setSource { s.source with answers := as }

/-- The bytes a transaction offers, in order (R10, R41). -/
def SinkTxn.bytes : SinkTxn → List Byte
  | .write8 b => [b]
  | .write16 h => [lowByte h, highByte h]
  | .flush => []

/-- The bytes of a failed transaction that the sink kept (R49). -/
def Retained.keep : Retained → List Byte → List Byte
  | .nothing, _ => []
  | .firstByte, bs => bs.take 1
  | .everything, bs => bs

/-- The bytes the sink accepted in one transaction (R41, R49). -/
def SinkRecord.accepted (x : SinkRecord) : List Byte :=
  match x.answer with
  | .ok => x.txn.bytes
  | .ioError kept => kept.keep x.txn.bytes

/-- The sink stream: the bytes accepted, in acceptance order (R41). -/
def SinkPort.stream (p : SinkPort) : List Byte := p.log.flatMap SinkRecord.accepted

/-- The byte an answer of the source delivered, if any. -/
def SourceAnswer.byte? : SourceAnswer → Option Byte
  | .byte b => some b
  | .endOfStream => none
  | .ioError => none

/-- The bytes taken from the source so far, in order (R42). -/
def SourcePort.taken (p : SourcePort) : List Byte := p.log.filterMap (fun x => x.answer.byte?)

/-- The source's position: how many bytes were taken (R42). -/
def SourcePort.position (p : SourcePort) : Nat := p.taken.length

/-! ### Writer transactions -/

/-- The request in flight: the emission of `W.acc[15:0]` (R83), the drain of `W.acc[7:0]`, or the flush (R86). -/
def WriterWait.request (p : WriterWait) (w : WriterUnit) : SinkTxn :=
  match p with
  | .emission => .write16 (emitChunkOf w.acc)
  | .drain => .write8 (drainByte w.acc)
  | .flush => .flush

/-- The head of W.FLUSH's loop: the next transaction is a byte while `W.filled > 0`, then the flush (R86). -/
def nextDrain (filled : Nat) : WriterWait := if filled > 0 then .drain else .flush

/-- The writer's command after an `ok` of its transaction: the shift and subtraction that follow an emission (R83) or a
drained byte (R86), and the response where the command is over. -/
def writerOk (p : WriterWait) (s : State) : State :=
  match p with
  | .emission =>
    respondOk .writer 0#16 (s.setW
      { s.w with acc := s.w.acc >>> Config.emitChunk, filled := s.w.filled - Config.emitChunk, busy := none })
  | .drain =>
    let filled := s.w.filled - min 8 s.w.filled
    s.setW { s.w with acc := s.w.acc >>> 8, filled := filled, busy := some (nextDrain filled) }
  | .flush => respondOk .writer 0#16 (s.setW { s.w with busy := none })

/-- The writer's command after an `IoError` of its transaction: the unit has failed, `acc` and `filled` stay (R84,
R87). -/
def writerError (s : State) : State := respondIoError .writer (s.setW { s.w with failed := true, busy := none })

/-- The writer's command whose transaction is answered while `FAULT` is latched: it responds FAULT and has no other
effect (R30, R159, D7; assumption log 8). -/
def endWriterFaulted (s : State) : State := respondFault (some .writer) (s.setW { s.w with busy := none })

/-- The sink answers the writer's transaction in flight: the command goes on, unless `FAULT` is latched (R30, R159). -/
def writerAnswered (p : WriterWait) (a : SinkAnswer) (s : State) : State :=
  let s := recordSink .unit (p.request s.w) a s
  if s.fault ≠ 0#8 then endWriterFaulted s
  else
    match a with
    | .ok => writerOk p s
    | .ioError _ => writerError s

/-- Run the writer's command on the answers the sink has ready: to its response, or until the answers run out (R51,
R162). -/
def pumpWriter : List SinkAnswer → State → State
  | [], s => setSinkAnswers [] s
  | a :: rest, s =>
    match s.w.busy with
    | none => setSinkAnswers (a :: rest) s
    | some p => pumpWriter rest (writerAnswered p a s)

/-- Resume the writer's command, if one is in flight. -/
def runWriter (s : State) : State := pumpWriter s.sink.answers s

/-- The operation of W.BITS and W.BIT: append the low `w` bits of `v`; at 16 buffered bits or more, emit (R83). -/
def writeField (w : Nat) (v : Half) (s : State) : State :=
  let acc := appendField s.w.acc s.w.filled w v
  let filled := s.w.filled + w
  if filled ≥ Config.emitThreshold then
    runWriter (s.setW { s.w with acc := acc, filled := filled, busy := some .emission })
  else respondOk .writer 0#16 (s.setW { s.w with acc := acc, filled := filled })

/-- The operation of W.FLUSH: drain, then flush (R86). -/
def drainAndFlush (s : State) : State := runWriter (s.setW { s.w with busy := some (nextDrain s.w.filled) })

/-! ### Reader: fill and peek -/

/-- The width of a read; R.BIT reads 1 (R107). -/
def ReadCmd.width : ReadCmd → Nat
  | .bit => 1
  | .bits w => w
  | .peek w => w

/-- The count of bits a successful read consumes: none for R.PEEK (R105, R106, R107). -/
def ReadCmd.consumed : ReadCmd → Nat
  | .bit => 1
  | .bits w => w
  | .peek _ => 0

/-- The response data of a read: the field, or for R.BIT whether it is nonzero (R67, R107). -/
def ReadCmd.data (c : ReadCmd) (field : Half) : Half :=
  match c with
  | .bit => boolData field
  | .bits _ => field
  | .peek _ => field

/-- A fill up to its `SourceRead8`: shift the accumulator down, reduce the offset (R101). The read is in flight. -/
def beginFill (c : ReadCmd) (s : State) : State :=
  s.setR { s.r with acc := s.r.acc >>> 8, offset := s.r.offset - 8, busy := some c }

/-- A read whose bits are buffered: extract, advance the offset unless it is a peek, respond (R103 to R107). -/
def finishRead (c : ReadCmd) (s : State) : State :=
  respondOk .reader (c.data (extractField s.r.acc s.r.offset c.width))
    (s.setR { s.r with offset := s.r.offset + c.consumed, busy := none })

/-- The head of Peek's loop: fill while fewer than `w` bits are buffered, else finish (R103). -/
def peekLoop (c : ReadCmd) (s : State) : State :=
  if Config.raccBits - s.r.offset < c.width then beginFill c s else finishRead c s

/-- What a failed fill leaves: the shift and decrement stand; in POISON mode the reader is poisoned (R112). -/
def failFill (s : State) : State :=
  s.setR { s.r with poisoned := s.r.poisoned || s.config.readerFailState == .poison, busy := none }

/-- The reader's command whose fill is answered while `FAULT` is latched: it responds FAULT and has no other effect (R30,
R159, D7; assumption log 8). -/
def endReaderFaulted (s : State) : State := respondFault (some .reader) (s.setR { s.r with busy := none })

/-- The source answers the fill in flight (R101, R112): the command goes on, unless `FAULT` is latched (R30, R159). -/
def readerAnswered (c : ReadCmd) (a : SourceAnswer) (s : State) : State :=
  let s := recordSource .unit a s
  if s.fault ≠ 0#8 then endReaderFaulted s
  else
    match a with
    | .byte b => peekLoop c (s.setR { s.r with acc := insertByte s.r.acc b, busy := none })
    | .endOfStream => respondEndOfStream .reader (failFill s)
    | .ioError => respondIoError .reader (failFill s)

/-- Run the reader's command on the answers the source has ready: to its response, or until the answers run out (R51,
R162). -/
def pumpReader : List SourceAnswer → State → State
  | [], s => setSourceAnswers [] s
  | a :: rest, s =>
    match s.r.busy with
    | none => setSourceAnswers (a :: rest) s
    | some c => pumpReader rest (readerAnswered c a s)

/-- Resume the reader's command, if one is in flight. -/
def runReader (s : State) : State := pumpReader s.source.answers s

/-- The operation of R.PEEK, R.BITS and R.BIT (R103, R105 to R107). -/
def readField (c : ReadCmd) (s : State) : State := runReader (peekLoop c s)

end Sys2Proof.Machine
end

