-- ==== Sys2Proof/Machine/Lifecycle.lean ====
section
/-! DEFINITION. The lifecycle and accessor commands (42_lifecycle.md). None issues a stream transaction (R90, R151). -/

namespace Sys2Proof.Machine

open Sys2Proof

/-- W.NEW's effect: every element of the writer is written (R131, R34). -/
def attachWriter (s : State) : State :=
  respondOk .writer 0#16 (s.setW { attached := true, acc := 0#32, filled := 0, failed := false, busy := none })

/-- W.NEW (R131). -/
def execWNew (s : State) : Result := commandTo .writer [alreadyAttachedCheck s.w.attached] attachWriter s

/-- W.INNER's effect: the host may use the sink from this response on (R132, R137). -/
def exposeSink (s : State) : State := respondOk .writer 0#16 (s.setSink { s.sink with exposed := true })

/-- W.INNER (R132). -/
def execWInner (s : State) : Result := commandTo .writer [notAttachedCheck s.w.attached] exposeSink s

/-- W.UNWRAP's effect: the unit owns no sink; nothing is flushed and the other elements keep their values (R133). -/
def detachWriter (s : State) : State := respondOk .writer 0#16 (s.setW { s.w with attached := false })

/-- W.UNWRAP (R133, R138). -/
def execWUnwrap (s : State) : Result := commandTo .writer [notAttachedCheck s.w.attached] detachWriter s

/-- R.NEW's effect: every element of the reader is written (R134, R34). -/
def attachReader (s : State) : State :=
  respondOk .reader 0#16 (s.setR { attached := true, acc := 0#32, offset := 32, poisoned := false, busy := none })

/-- R.NEW (R134). -/
def execRNew (s : State) : Result := commandTo .reader [alreadyAttachedCheck s.r.attached] attachReader s

/-- R.INNER's effect: the host may use the source from this response on (R135, R137). -/
def exposeSource (s : State) : State := respondOk .reader 0#16 (s.setSource { s.source with exposed := true })

/-- R.INNER (R135). -/
def execRInner (s : State) : Result := commandTo .reader [notAttachedCheck s.r.attached] exposeSource s

/-- R.UNWRAP's effect: the unit owns no source; buffered bits are not returned to it (R136). -/
def detachReader (s : State) : State := respondOk .reader 0#16 (s.setR { s.r with attached := false })

/-- R.UNWRAP (R136, R138). -/
def execRUnwrap (s : State) : Result := commandTo .reader [notAttachedCheck s.r.attached] detachReader s

end Sys2Proof.Machine
end

