-- ==== Sys2Proof/Machine/Reader.lean ====
section
/-! DEFINITION. The reader's data commands (41_reader.md). -/

namespace Sys2Proof.Machine

open Sys2Proof

/-- R.PEEK `w` (R105). -/
def execRPeek (w : Nat) (s : State) : Result :=
  commandTo .reader (readerDataChecks s ++ [widthCheck w Config.rMaxWidth]) (readField (.peek w)) s

/-- R.BITS `w` (R106). -/
def execRBits (w : Nat) (s : State) : Result :=
  commandTo .reader (readerDataChecks s ++ [widthCheck w Config.rMaxWidth]) (readField (.bits w)) s

/-- R.BIT (R107). -/
def execRBit (s : State) : Result := commandTo .reader (readerDataChecks s) (readField .bit) s

/-- The operation of R.SKIP: advance the offset, fetch nothing (R108). -/
def skipBits (w : Nat) (s : State) : State :=
  respondOk .reader 0#16 (s.setR { s.r with offset := s.r.offset + w })

/-- R.SKIP `w` (R108, R109). -/
def execRSkip (w : Nat) (s : State) : Result :=
  commandTo .reader (readerDataChecks s ++ [skipCheck s.r.offset w]) (skipBits w) s

/-- The operation of R.RESET: nothing is buffered any more; `R.acc` is not written (R110, R111). -/
def dropBuffer (s : State) : State :=
  respondOk .reader 0#16 (s.setR { s.r with offset := Config.raccBits, poisoned := false })

/-- R.RESET (R110): it makes no poison check (R100). -/
def execRReset (s : State) : Result := commandTo .reader [notAttachedCheck s.r.attached] dropBuffer s

end Sys2Proof.Machine
end

