-- ==== Sys2Proof/Machine/Writer.lean ====
section
/-! DEFINITION. The writer's data commands (40_writer.md). -/

namespace Sys2Proof.Machine

open Sys2Proof

/-- W.BITS `w, v` (R81 to R84): attachment, failure, width and headroom are checked, then the field is appended. -/
def execWBits (w : Nat) (v : Half) (s : State) : Result :=
  commandTo .writer (writerDataChecks s ++ [widthCheck w Config.wMaxWidth, headroomCheck s.w.filled w])
    (writeField w v) s

/-- W.BIT `b` (R85): R83 with width 1 and value `zext_16(b)`; the width checks cannot fire and are not made. -/
def execWBit (b : Bool) (s : State) : Result :=
  commandTo .writer (writerDataChecks s) (writeField 1 (bitValue b)) s

/-- W.FLUSH (R86 to R88). -/
def execWFlush (s : State) : Result := commandTo .writer (writerDataChecks s) drainAndFlush s

end Sys2Proof.Machine
end

