-- ==== Sys2Proof/Machine/Dispatch.lean ====
section
/-! DEFINITION. What each command does: one arm per constructor of `Instr`. -/

namespace Sys2Proof.Machine

open Sys2Proof

def exec (i : Instr) (s : State) : Host.Outcome State Fault Refusal :=
  match i with
  | .wNew => Sys2Proof.Machine.execWNew s
  | .wBit b => Sys2Proof.Machine.execWBit b s
  | .wBits w v => Sys2Proof.Machine.execWBits w v s
  | .wFlush => Sys2Proof.Machine.execWFlush s
  | .wInner => Sys2Proof.Machine.execWInner s
  | .wUnwrap => Sys2Proof.Machine.execWUnwrap s
  | .rNew => Sys2Proof.Machine.execRNew s
  | .rBit => Sys2Proof.Machine.execRBit s
  | .rBits w => Sys2Proof.Machine.execRBits w s
  | .rPeek w => Sys2Proof.Machine.execRPeek w s
  | .rSkip w => Sys2Proof.Machine.execRSkip w s
  | .rReset => Sys2Proof.Machine.execRReset s
  | .rInner => Sys2Proof.Machine.execRInner s
  | .rUnwrap => Sys2Proof.Machine.execRUnwrap s

end Sys2Proof.Machine
end

