-- ==== Sys2Proof/Machine/Interface.lean ====
section
/-! DEFINITION. What each thing the outside world does causes: a command word (30_encoding.md R68, R69; 60_exceptions.md
R156), an answer of a stream (R162), the host's own use of a stream (42_lifecycle.md R137, 20_memory.md R56), a stream
connected to a port (R130, R172), power-on reset (R170). -/

namespace Sys2Proof.Machine

open Sys2Proof

/-- An illegal word: `raise Fault(ILLEGAL_COMMAND)` after the latched-fault check (R63, R64, R155, R156 steps 1, 2). It
goes to the unit `OPC[7:4]` selects; where that selects none the block itself answers (assumption log 7). -/
def illegalWord (u : Option UnitId) (s : State) : Result :=
  match u with
  | some u => commandTo u [{ applies := true, code := .illegalCommand }] id s
  | none => .next (afterChecks none [{ applies := true, code := .illegalCommand }] id s)

/-- The host issues a command word (R68, R69, R156). -/
def issueWord (word : Word) (s : State) : Result :=
  match decode word with
  | .instr i => exec i s
  | .illegal _ => illegalWord (selectUnit word) s

/-- The host may use the sink itself: in a W.INNER interval, or when the writer does not own it (R137). -/
def hostMayUseSink (s : State) : Bool := s.sink.exposed || !s.w.attached

/-- The host may use the source itself: in an R.INNER interval, or when the reader does not own it (R137). -/
def hostMayUseSource (s : State) : Bool := s.source.exposed || !s.r.attached

/-- The host's own sink transaction (R137, R56): answered by the sink's next answer; the host waits where there is none
(assumption log 10). -/
def hostUsesSink (t : SinkTxn) (s : State) : Result :=
  if hostMayUseSink s then
    match s.sink.answers with
    | [] => .next (s.setInputs (.hostSink t :: s.inputs))
    | a :: rest => .next (recordSink .host t a (setSinkAnswers rest s))
  else .refused (.streamNotExposed .writer)

/-- The host's own read of the source (R137, R56), as `hostUsesSink`. -/
def hostUsesSource (s : State) : Result :=
  if hostMayUseSource s then
    match s.source.answers with
    | [] => .next (s.setInputs (.hostSource :: s.inputs))
    | a :: rest => .next (recordSource .host a (setSourceAnswers rest s))
  else .refused (.streamNotExposed .reader)

/-- The host connects a sink to the writer's port (R130, R172). A sink the writer owns stays (assumption log 11). -/
def connectSink (as : List SinkAnswer) (s : State) : Result :=
  if s.w.attached then .refused (.streamOwned .writer)
  else .next (s.setSink { answers := as, log := [], exposed := false })

/-- The host connects a source to the reader's port (R130, R172). -/
def connectSource (as : List SourceAnswer) (s : State) : Result :=
  if s.r.attached then .refused (.streamOwned .reader)
  else .next (s.setSource { answers := as, log := [], exposed := false })

/-- Power-on reset (R170): every state element of the block takes its power-on value and no transaction is issued. The
streams and the host are outside the block and keep what they hold (assumption log 12). DESIGN CHOICE, unsafe: a stream
transaction already issued and not yet answered is forgotten; it never enters the stream's log, and an answer that comes
for it later is kept for the next transaction (assumption log 22). -/
def powerOnReset (s : State) : State :=
  { config := s.config, w := WriterUnit.powerOn, r := ReaderUnit.powerOn, fault := 0#8,
    sink := { s.sink with exposed := false }, source := { s.source with exposed := false },
    inputs := s.inputs, responses := s.responses }

/-- The effect of one input, which has left `s.inputs`. -/
def takeInput (x : Input) (s : State) : Result :=
  match x with
  | .command word => issueWord word s
  | .sinkAnswer a => .next (runWriter (setSinkAnswers (s.sink.answers ++ [a]) s))
  | .sourceAnswer a => .next (runReader (setSourceAnswers (s.source.answers ++ [a]) s))
  | .hostSink t => hostUsesSink t s
  | .hostSource => hostUsesSource s
  | .connectSink as => connectSink as s
  | .connectSource as => connectSource as s
  | .powerOn => .next (powerOnReset s)

/-- The next input, if there is one. Where there is none the block waits: an idle block for its next command (R170), a
command in flight for its answer (R162), and the step leaves the state as it is (assumption log 15). -/
def nextInput (s : State) : Result :=
  match s.inputs with
  | [] => .next s
  | x :: rest => takeInput x (s.setInputs rest)

/-- A program is a list of command words, issued in order (R21): load one, before whatever else is to come. -/
def loadProgram (words : List Word) (s : State) : State := s.setInputs (words.map Input.command ++ s.inputs)

end Sys2Proof.Machine
end

