-- ==== Sys2Proof/Machine/Step.lean ====
section
/-! DEFINITION. One step of the machine: the block takes the next input of the outside world (Machine/Interface.lean). The
block has no program counter and fetches nothing (10_state.md R21, 20_memory.md R54): its program is the list of
command words in `State.inputs`. -/

namespace Sys2Proof.Machine

open Sys2Proof

/-- One step. -/
def step (s : State) : Host.Outcome State Fault Refusal := nextInput s

/-- `s` with one command word next in line, so that the very next step runs it (assumption log 1). -/
def State.withFetchWord (s : State) (nbits w : Nat) : State :=
  loadProgram [BitVec.ofNat 32 (w % 2 ^ nbits)] s

end Sys2Proof.Machine
end

