-- ==== Sys2Proof/Safety.lean ====
section
/-! DEFINITION. The terms claims are made in: the invariant of the block (10_state.md R24, R25, R29), when a unit is ready,
what a safe and a finished run are (60_exceptions.md R155), and the bits a unit holds and has been given (40_writer.md
R89, 41_reader.md R113). -/

namespace Sys2Proof.Machine

open Sys2Proof

/-! ### Runs -/

/-- `n` steps. -/
def runFor (n : Nat) (s : State) : Result := Sys2Proof.core.run n s

/-- The run of a program: its commands are issued in order (R21), one a step, to a host with nothing else to do. -/
def runProgram (program : List Instr) (s : State) : Result :=
  runFor program.length (loadProgram (program.map encode) s)

/-- A run of `n` steps is safe when no step is refused and no fault is latched in any of its states, the first and the
last among them: a fault refutes any claim about the run, also one that a later power-on reset clears (R155, U17). -/
def SafeFor : Nat → State → Prop
  | 0, s => s.fault = 0#8
  | n + 1, s => s.fault = 0#8 ∧ ∃ t, step s = .next t ∧ SafeFor n t

/-- Nothing is left to do: no input, and every command has responded (R162). -/
def Finished (s : State) : Prop := s.inputs = [] ∧ s.w.busy = none ∧ s.r.busy = none

/-- A finished run: a safe one that ends with nothing left to do; a faulted block is not a finished run (R155). -/
def FinishesIn (n : Nat) (s : State) : Prop := SafeFor n s ∧ ∃ t, runFor n s = .next t ∧ Finished t

/-! ### When a data command of a unit executes normally -/

/-- Every check of R80 passes and the writer is not waiting. -/
abbrev WriterReady (s : State) : Prop :=
  s.fault = 0#8 ∧ s.w.busy = none ∧ s.w.attached = true ∧ s.w.failed = false

/-- Every check of R100 passes and the reader is not waiting. -/
abbrev ReaderReady (s : State) : Prop :=
  s.fault = 0#8 ∧ s.r.busy = none ∧ s.r.attached = true ∧ readerPoisonedNow s = false

/-- The response OK with data (R65, R66). -/
def okResponse (u : UnitId) (data : Half) : Response := { unit := some u, word := responseWord .ok 0#8 data }

/-- The sink port of a unit that has just been given a command: the interval of R137 is over. -/
def closedSink (s : State) : SinkPort := { s.sink with exposed := false }

/-- The source port of a unit that has just been given a command: the interval of R137 is over. -/
def closedSource (s : State) : SourcePort := { s.source with exposed := false }

/-! ### The fault a command raises, read off R156 -/

/-- R156 step 3: attachment. -/
def attachmentFault (i : Instr) (s : State) : Option Byte :=
  match i with
  | .wNew => if s.w.attached then some 0x03#8 else none
  | .rNew => if s.r.attached then some 0x03#8 else none
  | .wBit _ | .wBits _ _ | .wFlush | .wInner | .wUnwrap => if s.w.attached then none else some 0x02#8
  | .rBit | .rBits _ | .rPeek _ | .rSkip _ | .rReset | .rInner | .rUnwrap =>
    if s.r.attached then none else some 0x02#8

/-- R156 step 4: a failed writer, a poisoned reader in POISON mode. -/
def unitFailureFault (i : Instr) (s : State) : Option Byte :=
  match i with
  | .wBit _ | .wBits _ _ | .wFlush => if s.w.failed then some 0x07#8 else none
  | .rBit | .rBits _ | .rPeek _ | .rSkip _ =>
    if s.config.readerFailState = .poison ∧ s.r.poisoned = true then some 0x08#8 else none
  | .wNew | .wInner | .wUnwrap | .rNew | .rReset | .rInner | .rUnwrap => none

/-- R156 step 5: width range. -/
def widthFault : Instr → Option Byte
  | .wBits w _ => if w > 15 then some 0x04#8 else none
  | .rBits w => if w > 16 then some 0x04#8 else none
  | .rPeek w => if w > 16 then some 0x04#8 else none
  | .wNew | .wBit _ | .wFlush | .wInner | .wUnwrap | .rNew | .rBit | .rSkip _ | .rReset | .rInner | .rUnwrap => none

/-- R156 step 6: headroom of a write, underflow of a skip. -/
def roomFault (i : Instr) (s : State) : Option Byte :=
  match i with
  | .wBits w _ => if s.w.filled + w > 32 then some 0x05#8 else none
  | .rSkip w => if w > 32 - s.r.offset then some 0x06#8 else none
  | .wNew | .wBit _ | .wFlush | .wInner | .wUnwrap | .rNew | .rBit | .rBits _ | .rPeek _ | .rReset | .rInner
  | .rUnwrap => none

/-- The code of the first check of R156, steps 3 to 6, that applies. -/
def commandFault (i : Instr) (s : State) : Option Byte :=
  (attachmentFault i s).or ((unitFailureFault i s).or ((widthFault i).or (roomFault i s)))

/-! ### The invariant -/

/-- What holds of the fill count while a transaction is in flight (R83, R86). -/
def WriterWait.filledOk (p : WriterWait) (filled : Nat) : Prop :=
  match p with
  | .emission => 16 ≤ filled
  | .drain => 1 ≤ filled ∧ filled ≤ 15
  | .flush => filled = 0

/-- The invariant of the block, kept by every step. -/
structure State.Inv (s : State) : Prop where
  /-- R24: every bit of `W.acc` at position `W.filled` or above is 0. -/
  accBelowFilled : s.w.acc.toNat < 2 ^ s.w.filled
  /-- R25: at most 30 at any time. -/
  filledBound : s.w.filled ≤ 30
  /-- R25: at most 15 between commands while the writer has not failed. The bound is derived for commands that run their
  pseudocode to the end; one that a latched fault cut short (log 8) leaves what its append gave. -/
  filledIdle : s.fault = 0#8 → s.w.failed = false → s.w.busy = none → s.w.filled ≤ 15
  /-- A writer command waits only on an owned sink that has no answer ready, and not after a failure. -/
  writerWaits : ∀ p, s.w.busy = some p →
    s.w.attached = true ∧ s.w.failed = false ∧ s.sink.answers = [] ∧ s.sink.exposed = false ∧ p.filledOk s.w.filled
  /-- R29: the reachable range of `R.offset`. -/
  offsetRange : 9 ≤ s.r.offset ∧ s.r.offset ≤ 32
  /-- A reader command waits only on an owned source that has no answer ready; its fill has made room for a byte at bits
  31:24 (R101), and fewer bits are buffered than it needs (R103). -/
  readerWaits : ∀ c, s.r.busy = some c →
    s.r.attached = true ∧ readerPoisonedNow s = false ∧ s.source.answers = [] ∧ s.source.exposed = false ∧
      c.width ≤ 16 ∧ s.r.offset ≤ 24 ∧ 24 < c.width + s.r.offset ∧ s.r.acc.toNat < 2 ^ 24
  /-- R27, R154: `R.poisoned` exists only in POISON mode. -/
  poisonOnlyInPoisonMode : s.config.readerFailState = .stepOrder → s.r.poisoned = false
  /-- R152: the codes 0x09 to 0xFF are never written. -/
  faultCode : s.fault.toNat ≤ 8
  /-- R132, R137: a sink is exposed only while the writer owns it. -/
  sinkExposed : s.sink.exposed = true → s.w.attached = true
  /-- R135, R137: a source is exposed only while the reader owns it. -/
  sourceExposed : s.source.exposed = true → s.r.attached = true

/-! ### Bits held and given -/

/-- The bytes the unit itself has offered the sink, in order (R89); the host's own transactions (R137) do not count. -/
def SinkPort.offered (p : SinkPort) : List Byte :=
  (p.log.filter (fun x => x.issuer == .unit)).flatMap (fun x => x.txn.bytes)

/-- The bytes the reader itself has fetched, in order (R113). -/
def SourcePort.fetched (p : SourcePort) : List Byte :=
  (p.log.filter (fun x => x.issuer == .unit)).filterMap (fun x => x.answer.byte?)

/-- The bits the writer holds, oldest first: `W.acc[W.filled-1:0]` (R23). -/
def WriterUnit.buffered (w : WriterUnit) : List Bool := bitsLsb w.filled w.acc

/-- The bits the reader holds, next first: `R.acc[31:R.offset]` (R28). -/
def ReaderUnit.buffered (r : ReaderUnit) : List Bool := bitsLsb (32 - r.offset) (r.acc >>> r.offset)

/-- The sequence `G` of R89 after one more command: the bits a write gives, the zero bits a flush pads with. -/
def givenBits (g : List Bool) (i : Instr) : List Bool :=
  match i with
  | .wBit b => g ++ [b]
  | .wBits w v => g ++ bitsLsb w v
  | .wFlush => g ++ List.replicate ((8 - g.length % 8) % 8) false
  | .wNew | .wInner | .wUnwrap | .rNew | .rBit | .rBits _ | .rPeek _ | .rSkip _ | .rReset | .rInner | .rUnwrap => g

/-- The bits a successful command of the reader consumes (R113). -/
def consumedBits : Instr → Nat
  | .rBit => 1
  | .rBits w => w
  | .rSkip w => w
  | .rPeek _ | .wNew | .wBit _ | .wBits _ _ | .wFlush | .wInner | .wUnwrap | .rNew | .rReset | .rInner | .rUnwrap => 0

/-- The command a read in flight belongs to. -/
def ReadCmd.instr : ReadCmd → Instr
  | .bit => .rBit
  | .bits w => .rBits w
  | .peek w => .rPeek w

/-- How many fills a read of `w` bits makes with `offset` bits consumed (R103, R113). -/
def fillsNeeded (offset w : Nat) : Nat := (w - (32 - offset) + 7) / 8

/-- The accumulator after one successful fill (R101). -/
def filledAcc (acc : Word) (b : Byte) : Word := (acc >>> 8) ||| (b.setWidth 32 <<< 24)

/-- Two states that differ at most in the bits of `R.acc` below `R.offset` (R111). -/
def SameButStaleBits (s t : State) : Prop :=
  t = s.setR { s.r with acc := t.r.acc } ∧ t.r.acc >>> s.r.offset = s.r.acc >>> s.r.offset

end Sys2Proof.Machine
end

