-- ==== Sys2Proof/Certificates/Slice0/Obligations.lean ====
section
/-! DEFINITION. The statements for the provers. Each docstring names the rules of spec/ it formalises; where a clause is
the model's own choice it names the assumption log entry. -/

open Sys2Proof Sys2Proof.Machine

/-! ### Reset, stepping, decoding -/

/-- R34: the power-on value of every state element, and the values W.NEW and R.NEW give, which leave `FAULT`
unchanged. -/
def Obligations.ResetAndCreationValues : Prop :=
  (∀ c : Config,
    (State.resetWith c).w.attached = false ∧ (State.resetWith c).w.acc = 0#32 ∧ (State.resetWith c).w.filled = 0 ∧
    (State.resetWith c).w.failed = false ∧ (State.resetWith c).r.attached = false ∧
    (State.resetWith c).r.acc = 0#32 ∧ (State.resetWith c).r.offset = 32 ∧ (State.resetWith c).r.poisoned = false ∧
    (State.resetWith c).fault = 0#8) ∧
  (∀ s : State, s.fault = 0#8 → s.w.busy = none → s.w.attached = false →
    ∃ t, exec .wNew s = .next t ∧ t.w.attached = true ∧ t.w.acc = 0#32 ∧ t.w.filled = 0 ∧ t.w.failed = false ∧
      t.fault = s.fault) ∧
  (∀ s : State, s.fault = 0#8 → s.r.busy = none → s.r.attached = false →
    ∃ t, exec .rNew s = .next t ∧ t.r.attached = true ∧ t.r.acc = 0#32 ∧ t.r.offset = 32 ∧ t.r.poisoned = false ∧
      t.fault = s.fault)

/-- R170: power-on reset puts every element of the block at its power-on value from any state, whatever is latched or in
flight, and issues no stream transaction. That the host's further inputs, the streams and the parameters stay is the
model's choice (log 12), and so is that a transaction in flight is forgotten and leaves no entry in a log (log 22). -/
def Obligations.PowerOnResetsTheBlockFromAnyState : Prop :=
  ∀ (s : State) (rest : List Input), s.inputs = .powerOn :: rest →
    step s = .next
      { config := s.config
        w := { attached := false, acc := 0#32, filled := 0, failed := false, busy := none }
        r := { attached := false, acc := 0#32, offset := 32, poisoned := false, busy := none }
        fault := 0#8
        sink := { s.sink with exposed := false }
        source := { s.source with exposed := false }
        inputs := rest
        responses := s.responses }

/-- R68, R69, R21: when the next input is a command word that decodes to `i`, the step is `exec i` of the state with that
input taken; and a loaded program is issued word by word in its order. The list of inputs is the model's form (log 1). -/
def Obligations.StepRunsTheDecodedCommand : Prop :=
  (∀ (s : State) (word : Word) (rest : List Input) (i : Instr),
    s.inputs = .command word :: rest → decode word = .instr i → step s = exec i { s with inputs := rest }) ∧
  (∀ (s : State) (words : List Word), (loadProgram words s).inputs = words.map Input.command ++ s.inputs)

/-- R62, R70, R85 and 95_test_vectors.md: command words written out from the fields of R60, decoded. -/
def Obligations.SpecWordsDecode : Prop :=
  decode 0x10000000#32 = .instr .wNew ∧ decode 0x11000001#32 = .instr (.wBit true) ∧
  decode 0x12030002#32 = .instr (.wBits 3 0b010#16) ∧ decode 0x120B055A#32 = .instr (.wBits 11 0b10101011010#16) ∧
  decode 0x13000000#32 = .instr .wFlush ∧ decode 0x23030000#32 = .instr (.rPeek 3) ∧
  decode 0x22080000#32 = .instr (.rBits 8) ∧ decode 0x24170000#32 = .instr (.rSkip 23) ∧
  decode 0x12200000#32 = .illegal .reservedRsv ∧ decode 0x11000002#32 = .illegal .reservedV ∧
  decode 0x22008000#32 = .illegal .reservedV ∧ decode 0x00000000#32 = .illegal .unassignedOpcode

/-- R60, R62: decoding an encoded command gives it back, with every operand value the encoding admits. -/
def Obligations.DecodeOfEncodeIsTheCommand : Prop :=
  ∀ i : Instr, i.WellFormed → decode (encode i) = .instr i

/-- R60, R62: every legal word is the encoding of exactly the command it decodes to, which is well formed: no two words
decode to one command. -/
def Obligations.EncodeOfDecodeIsTheWord : Prop :=
  ∀ (word : Word) (i : Instr), decode word = .instr i → i.WellFormed ∧ encode i = word

/-- R62 to R64: a word decodes to a command exactly when it belongs to a row of spec/opcode_table.json (its mask and
match), it belongs to at most one row, and the command is that row's. Every other word is illegal. -/
def Obligations.LegalWordsAreTheTableRows : Prop :=
  ∀ word : Word,
    ((∃ i, decode word = .instr i) ↔ ∃ op : Opcode, op.tableRow.matches word) ∧
    (∀ i, decode word = .instr i → i.opcode.tableRow.matches word) ∧
    (∀ op₁ op₂ : Opcode, op₁.tableRow.matches word → op₂.tableRow.matches word → op₁ = op₂)

/-- R63, R64, R156 steps 1 and 2: an illegal word raises `ILLEGAL_COMMAND` (0x01) and has no other effect. Which unit the
word goes to, and that it ends that unit's INNER interval, are the model's reading (logs 7, 9). -/
def Obligations.IllegalWordRaisesIllegalCommand : Prop :=
  ∀ (s : State) (word : Word) (rest : List Input) (why : IllegalReason),
    s.inputs = .command word :: rest → decode word = .illegal why → s.fault = 0#8 →
    (∀ u, selectUnit word = some u → unitIsBusy u s = false) →
    ∃ t, step s = .next t ∧ t.fault = 0x01#8 ∧
      t.responses = s.responses ++ [{ unit := selectUnit word, word := 0x03010000#32 }] ∧
      t.w = s.w ∧ t.r = s.r ∧ t.config = s.config ∧ t.inputs = rest ∧
      t.sink.log = s.sink.log ∧ t.sink.answers = s.sink.answers ∧
      t.source.log = s.source.log ∧ t.source.answers = s.source.answers

/-! ### Responses and faults -/

/-- R65 to R67, R71: the command completes with exactly one response of its own unit, or is left waiting for its stream
with none given (the model's form of R162: log 6); the status is one of the four, and `FCODE` is `FAULT` when the status
is FAULT, else 0. -/
def Obligations.EachCommandGivesOneResponse : Prop :=
  ∀ (i : Instr) (s t : State), exec i s = .next t →
    (unitIsBusy i.unit t = true ∧ t.responses = s.responses) ∨
    (unitIsBusy i.unit t = false ∧ ∃ x : Response, t.responses = s.responses ++ [x] ∧ x.unit = some i.unit ∧
      (x.word.extractLsb' 24 8).toNat ≤ 3 ∧
      x.word.extractLsb' 16 8 = if x.word.extractLsb' 24 8 = 0x03#8 then t.fault else 0#8)

/-- R67: `DATA` is nonzero only in a response with status OK to R.PEEK, R.BITS or R.BIT, and for R.BIT it is 0x0000 or
0x0001. -/
def Obligations.DataComesOnlyFromSuccessfulReads : Prop :=
  ∀ (i : Instr) (s t : State) (x : Response), exec i s = .next t → t.responses = s.responses ++ [x] →
    x.word.extractLsb' 0 16 ≠ 0#16 →
    x.word.extractLsb' 24 8 = 0x00#8 ∧
      ((∃ w, i = .rPeek w) ∨ (∃ w, i = .rBits w) ∨ (i = .rBit ∧ x.word.extractLsb' 0 16 = 0x0001#16))

/-- R156 steps 3 to 6, R152: the first check that applies raises its code, responds `0x03cc0000`, and has no other effect
on the block or the streams. That the command ends its unit's INNER interval although it faults (`closeInterval`) is the
model's reading of R137, DEDUCED (log 9). -/
def Obligations.FirstFailingCheckRaisesItsFault : Prop :=
  ∀ (i : Instr) (s : State) (c : Byte), unitIsBusy i.unit s = false → s.fault = 0#8 → commandFault i s = some c →
    exec i s = .next { closeInterval i.unit s with
      fault := c
      responses := s.responses ++ [{ unit := some i.unit, word := 0x03000000#32 ||| (c.setWidth 32 <<< 16) }] }

/-- R156 step 7: where no check applies, the command raises no fault. -/
def Obligations.PassingChecksRaiseNoFault : Prop :=
  ∀ (i : Instr) (s t : State), s.fault = 0#8 → commandFault i s = none → exec i s = .next t → t.fault = 0#8

/-- R155: while `FAULT` is not 0 every command word, legal or not and to either unit, completes at once with status FAULT
and the latched code, writes no state of the block and issues no transaction. (A word to a unit that still owes a
response is not accepted at all, R69. That the word ends its unit's INNER interval, and which unit an illegal word goes
to, are the model's reading: logs 9, 7.) R30, R159, D7: a command that was waiting for its stream when the other unit
latched the fault goes no further either: it responds FAULT, writes no register and issues nothing more. That it does
so when its transaction is answered (R162: no cancellation) and not before is the model's reading (log 8). -/
def Obligations.LatchedFaultAnswersEveryWord : Prop :=
  (∀ (s : State) (word : Word) (rest : List Input), s.inputs = .command word :: rest → s.fault ≠ 0#8 →
    (∀ u, selectUnit word = some u → unitIsBusy u s = false) →
    ∃ t, step s = .next t ∧
      t.responses = s.responses ++ [{ unit := selectUnit word, word := 0x03000000#32 ||| (s.fault.setWidth 32 <<< 16) }] ∧
      t.fault = s.fault ∧ t.w = s.w ∧ t.r = s.r ∧ t.config = s.config ∧ t.inputs = rest ∧
      t.sink.log = s.sink.log ∧ t.sink.answers = s.sink.answers ∧
      t.source.log = s.source.log ∧ t.source.answers = s.source.answers) ∧
  (∀ (s : State) (p : WriterWait) (a : SinkAnswer) (rest : List Input), s.inputs = .sinkAnswer a :: rest →
    s.fault ≠ 0#8 → s.w.busy = some p → s.sink.answers = [] →
    step s = .next { s with
      w := { s.w with busy := none }
      sink := { s.sink with log := s.sink.log ++ [{ issuer := .unit, txn := p.request s.w, answer := a }] }
      inputs := rest
      responses := s.responses ++
        [{ unit := some .writer, word := 0x03000000#32 ||| (s.fault.setWidth 32 <<< 16) }] }) ∧
  (∀ (s : State) (c : ReadCmd) (a : SourceAnswer) (rest : List Input), s.inputs = .sourceAnswer a :: rest →
    s.fault ≠ 0#8 → s.r.busy = some c → s.source.answers = [] →
    step s = .next { s with
      r := { s.r with busy := none }
      source := { s.source with log := s.source.log ++ [{ issuer := .unit, answer := a }] }
      inputs := rest
      responses := s.responses ++
        [{ unit := some .reader, word := 0x03000000#32 ||| (s.fault.setWidth 32 <<< 16) }] })

/-- R30, R155, R159: `FAULT` is sticky, and after a fault nothing but a power-on reset makes progress: no other step changes
the code or a register of either unit; every response given is FAULT with the code; and neither unit issues a
transaction (what enters a log is the host's own use of a stream, or the answer to the one transaction that was already
in flight when the fault was latched). That a waiting command ends when it is answered (`busy`) is the model's reading
(log 8). -/
def Obligations.OnlyPowerOnClearsFault : Prop :=
  ∀ s t : State, step s = .next t → s.fault ≠ 0#8 → s.inputs.head? ≠ some .powerOn →
    t.fault = s.fault ∧
    (t.w = s.w ∨ t.w = { s.w with busy := none }) ∧ (t.r = s.r ∨ t.r = { s.r with busy := none }) ∧
    (∃ new, t.responses = s.responses ++ new ∧
      ∀ x ∈ new, x.word = 0x03000000#32 ||| (s.fault.setWidth 32 <<< 16)) ∧
    ((∀ as, s.inputs.head? ≠ some (.connectSink as)) →
      ∃ new, t.sink.log = s.sink.log ++ new ∧ new.length ≤ 1 ∧
        ∀ x ∈ new, x.issuer = .unit → ∃ p, s.w.busy = some p ∧ t.w.busy = none ∧ x.txn = p.request s.w) ∧
    ((∀ as, s.inputs.head? ≠ some (.connectSource as)) →
      ∃ new, t.source.log = s.source.log ++ new ∧ new.length ≤ 1 ∧
        ∀ x ∈ new, x.issuer = .unit → s.r.busy ≠ none ∧ t.r.busy = none)

/-- R153, R26: with `W.failed = 1` the writer's data commands raise `USE_AFTER_FAILURE`; W.INNER (R132) and W.UNWRAP (R133)
still execute, and W.NEW (R131) after the unwrap clears the latch. That a data command which faults ends the INNER
interval (`closedSink`) is the model's reading of R137, DEDUCED (log 9). -/
def Obligations.FailedWriterIsUnusable : Prop :=
  ∀ s : State, s.fault = 0#8 → s.w.busy = none → s.w.attached = true → s.w.failed = true →
    (∀ i : Instr, (i = .wFlush ∨ (∃ b, i = .wBit b) ∨ ∃ w v, i = .wBits w v) →
      exec i s = .next { s with
        sink := closedSink s, fault := 0x07#8
        responses := s.responses ++ [{ unit := some .writer, word := 0x03070000#32 }] }) ∧
    (exec .wInner s = .next { s with
      sink := { s.sink with exposed := true }, responses := s.responses ++ [okResponse .writer 0#16] }) ∧
    (∃ t u, exec .wUnwrap s = .next t ∧ t.w.attached = false ∧ t.w.failed = true ∧ t.fault = 0#8 ∧
      exec .wNew t = .next u ∧ u.w.failed = false ∧ u.w.attached = true)

/-- R154: in POISON mode a poisoned reader's data reads raise `READER_POISONED`; R.RESET, R.INNER and R.UNWRAP are
unaffected, R.RESET and R.NEW (after an unwrap) clear the poison; under STEP_ORDER this fault never occurs. That a read
which faults ends the INNER interval (`closedSource`) is the model's reading of R137, DEDUCED (log 9). -/
def Obligations.PoisonedReaderFaultsOnlyInPoisonMode : Prop :=
  (∀ s : State, s.fault = 0#8 → s.r.busy = none → s.r.attached = true → s.r.poisoned = true →
    s.config.readerFailState = .poison →
    (∀ i : Instr, (i = .rBit ∨ (∃ w, i = .rBits w) ∨ (∃ w, i = .rPeek w) ∨ ∃ w, i = .rSkip w) →
      exec i s = .next { s with
        source := closedSource s, fault := 0x08#8
        responses := s.responses ++ [{ unit := some .reader, word := 0x03080000#32 }] }) ∧
    (∃ t, exec .rReset s = .next t ∧ t.fault = 0#8 ∧ t.r.poisoned = false ∧ t.r.offset = 32) ∧
    (∃ t, exec .rInner s = .next t ∧ t.fault = 0#8 ∧ t.r = s.r ∧ t.source.exposed = true) ∧
    (∃ t u, exec .rUnwrap s = .next t ∧ t.fault = 0#8 ∧ t.r.attached = false ∧
      exec .rNew t = .next u ∧ u.fault = 0#8 ∧ u.r.poisoned = false)) ∧
  (∀ (i : Instr) (s t : State), s.config.readerFailState = .stepOrder → s.fault = 0#8 → exec i s = .next t →
    t.fault ≠ 0x08#8)

/-! ### Writer commands -/

/-- R83 below the threshold: the low `w` bits of `v` are appended at bit `filled`, no transaction is issued, the command
responds OK, and nothing else changes but the end of the INNER interval (R137). -/
def Obligations.WBitsBelowThresholdAppends : Prop :=
  ∀ (s : State) (w : Nat) (v : Half), WriterReady s → w ≤ 15 → s.w.filled + w < 16 →
    exec (.wBits w v) s = .next { s with
      w := { s.w with
        acc := s.w.acc ||| (((v &&& BitVec.ofNat 16 (2 ^ w - 1)).setWidth 32) <<< s.w.filled)
        filled := s.w.filled + w }
      sink := closedSink s
      responses := s.responses ++ [okResponse .writer 0#16] }

/-- R83 at the threshold: one emission of the low 16 bits, then shift and subtract; `W.filled <= 15` beforehand is R25.
Every bit of the accumulator after the append is a bit it held or a bit of the field. -/
def Obligations.WBitsAtThresholdEmits : Prop :=
  ∀ (s : State) (w : Nat) (v : Half) (rest : List SinkAnswer), WriterReady s → w ≤ 15 → s.w.filled ≤ 15 →
    16 ≤ s.w.filled + w → s.sink.answers = .ok :: rest →
    ∃ acc : Word,
      (∀ k, k < 32 → acc.getLsbD k =
        (s.w.acc.getLsbD k || (decide (s.w.filled ≤ k ∧ k < s.w.filled + w) && v.getLsbD (k - s.w.filled)))) ∧
      exec (.wBits w v) s = .next { s with
        w := { s.w with acc := acc >>> 16, filled := s.w.filled + w - 16 }
        sink := {
          answers := rest
          log := s.sink.log ++ [{ issuer := .unit, txn := .write16 (acc.setWidth 16), answer := .ok }]
          exposed := false }
        responses := s.responses ++ [okResponse .writer 0#16] }

/-- R84: an `IoError` of the emission sets `W.failed` and ends with `IO_ERROR`; `W.acc` and `W.filled` keep the values the
append gave them, so `16 <= W.filled <= 30`. -/
def Obligations.WBitsSinkErrorFailsTheWriter : Prop :=
  ∀ (s : State) (w : Nat) (v : Half) (kept : Retained) (rest : List SinkAnswer), WriterReady s → w ≤ 15 →
    s.w.filled ≤ 15 → 16 ≤ s.w.filled + w → s.sink.answers = .ioError kept :: rest →
    ∃ t, exec (.wBits w v) s = .next t ∧
      t.w = { s.w with
        acc := s.w.acc ||| (((v &&& BitVec.ofNat 16 (2 ^ w - 1)).setWidth 32) <<< s.w.filled)
        filled := s.w.filled + w
        failed := true } ∧
      16 ≤ t.w.filled ∧ t.w.filled ≤ 30 ∧
      t.responses = s.responses ++ [{ unit := some .writer, word := 0x01000000#32 }] ∧
      t.sink = {
        answers := rest
        log := s.sink.log ++ [{ issuer := .unit, txn := .write16 (t.w.acc.setWidth 16), answer := .ioError kept }]
        exposed := false } ∧
      t.r = s.r ∧ t.source = s.source ∧ t.fault = s.fault ∧ t.config = s.config ∧ t.inputs = s.inputs

/-- R85: W.BIT appends its one bit, and emits when it brings `W.filled` from 15 to 16. -/
def Obligations.WBitAppendsOneBit : Prop :=
  (∀ (s : State) (b : Bool), WriterReady s → s.w.filled < 15 →
    exec (.wBit b) s = .next { s with
      w := { s.w with acc := s.w.acc ||| ((if b then 1#32 else 0#32) <<< s.w.filled), filled := s.w.filled + 1 }
      sink := closedSink s
      responses := s.responses ++ [okResponse .writer 0#16] }) ∧
  (∀ (s : State) (b : Bool) (rest : List SinkAnswer), WriterReady s → s.w.filled = 15 →
    s.sink.answers = .ok :: rest →
    ∃ acc : Word, acc = s.w.acc ||| ((if b then 1#32 else 0#32) <<< 15) ∧
      exec (.wBit b) s = .next { s with
        w := { s.w with acc := acc >>> 16, filled := 0 }
        sink := {
          answers := rest
          log := s.sink.log ++ [{ issuer := .unit, txn := .write16 (acc.setWidth 16), answer := .ok }]
          exposed := false }
        responses := s.responses ++ [okResponse .writer 0#16] })

/-- R85, R71: W.BIT `b` has exactly the effect of W.BITS `1, b`, whatever the state of the stream; the count is in its
range of R22. -/
def Obligations.WBitIsWBitsOfWidthOne : Prop :=
  ∀ (s : State) (b : Bool), s.w.filled ≤ 31 → exec (.wBit b) s = exec (.wBits 1 (if b then 1#16 else 0#16)) s

/-- R91: bits of `v` at and above the width change no state and reach no stream. -/
def Obligations.WBitsIgnoresBitsAboveTheWidth : Prop :=
  ∀ (s : State) (w : Nat) (v v' : Half), (∀ k, k < w → v.getLsbD k = v'.getLsbD k) →
    exec (.wBits w v) s = exec (.wBits w v') s

/-- R92: W.BITS of width 0 appends nothing, leaves `W.filled` unchanged and emits nothing; it still faults like any data
command when the checks of R80 fail. -/
def Obligations.WBitsOfWidthZeroWritesNothing : Prop :=
  (∀ (s : State) (v : Half), WriterReady s → s.w.filled ≤ 15 →
    exec (.wBits 0 v) s = .next { s with
      sink := closedSink s, responses := s.responses ++ [okResponse .writer 0#16] }) ∧
  (∀ (s : State) (v : Half), s.fault = 0#8 → s.w.busy = none → s.w.attached = false →
    ∃ t, exec (.wBits 0 v) s = .next t ∧ t.fault = 0x02#8 ∧ t.w = s.w) ∧
  (∀ (s : State) (v : Half), s.fault = 0#8 → s.w.busy = none → s.w.attached = true → s.w.failed = true →
    ∃ t, exec (.wBits 0 v) s = .next t ∧ t.fault = 0x07#8 ∧ t.w = s.w) ∧
  (∀ (s : State) (v : Half), s.fault ≠ 0#8 → s.w.busy = none →
    ∃ t, exec (.wBits 0 v) s = .next t ∧ t.fault = s.fault ∧ t.w = s.w ∧ t.responses = s.responses ++
      [{ unit := some .writer, word := 0x03000000#32 ||| (s.fault.setWidth 32 <<< 16) }])

/-- R86, R88: W.FLUSH drains `ceil(F / 8)` bytes, the lowest first, then issues one flush request, and leaves `W.acc = 0`
and `W.filled = 0`; the premises on `W.acc` and `W.filled` are R24 and R25. -/
def Obligations.WFlushDrainsEveryByteThenFlushes : Prop :=
  ∀ (s : State) (rest : List SinkAnswer), WriterReady s → s.w.filled ≤ 15 → s.w.acc.toNat < 2 ^ s.w.filled →
    s.sink.answers = List.replicate ((s.w.filled + 7) / 8 + 1) .ok ++ rest →
    exec .wFlush s = .next { s with
      w := { s.w with acc := 0#32, filled := 0 }
      sink := {
        answers := rest
        log := s.sink.log ++
          ((List.range ((s.w.filled + 7) / 8)).map
            (fun k => { issuer := .unit, txn := .write8 ((s.w.acc >>> (8 * k)).setWidth 8), answer := .ok }) ++
          [{ issuer := .unit, txn := .flush, answer := .ok }])
        exposed := false }
      responses := s.responses ++ [okResponse .writer 0#16] }

/-- R87: an `IoError` of the `k`-th transaction of a W.FLUSH: the bytes before it stay drained, its own shift and
subtraction do not happen, no further transaction is issued, `W.failed` is set, the response is `IO_ERROR`. -/
def Obligations.WFlushSinkErrorFailsTheWriter : Prop :=
  ∀ (s : State) (k : Nat) (kept : Retained) (rest : List SinkAnswer), WriterReady s → s.w.filled ≤ 15 →
    k ≤ (s.w.filled + 7) / 8 → s.sink.answers = List.replicate k .ok ++ .ioError kept :: rest →
    exec .wFlush s = .next { s with
      w := { s.w with acc := s.w.acc >>> (8 * k), filled := s.w.filled - 8 * k, failed := true }
      sink := {
        answers := rest
        log := s.sink.log ++
          ((List.range k).map
            (fun j => { issuer := .unit, txn := .write8 ((s.w.acc >>> (8 * j)).setWidth 8), answer := .ok }) ++
          [{ issuer := .unit
             txn := if k < (s.w.filled + 7) / 8 then .write8 ((s.w.acc >>> (8 * k)).setWidth 8) else .flush
             answer := .ioError kept }])
        exposed := false }
      responses := s.responses ++ [{ unit := some .writer, word := 0x01000000#32 }] }

/-- R89: since W.NEW, while no command of the writer has failed, the bits the writer has offered the sink followed by the
bits it still holds are exactly the bits it has been given, in order, each flush padding to a whole byte: no bit is
offered twice, dropped or reordered. Commands of the reader may stand anywhere in the program. -/
def Obligations.EmissionLaw : Prop :=
  ∀ (program : List Instr) (s t : State),
    (∀ i ∈ program, i.WellFormed ∧ i ≠ .wNew ∧ i ≠ .wUnwrap) →
    WriterReady s → s.w.acc = 0#32 → s.w.filled = 0 →
    runProgram program s = .next t → t.fault = 0#8 → t.w.failed = false → t.w.busy = none →
    streamBits t.sink.offered ++ t.w.buffered = streamBits s.sink.offered ++ program.foldl givenBits []

/-- The step of R89: a writer command that completes without error keeps every bit: after it the offered and held bits are
those before it followed by the bits the command gives. (`g` is what has been given so far; only its length modulo 8
matters, for the padding of a flush.) -/
def Obligations.WriterCommandLosesNoBit : Prop :=
  ∀ (i : Instr) (s t : State) (g : List Bool), s.Inv → WriterReady s → i ≠ .wNew → i ≠ .wUnwrap →
    s.w.filled % 8 = g.length % 8 →
    exec i s = .next t → t.fault = 0#8 → t.w.failed = false → t.w.busy = none →
    ∃ given : List Bool, givenBits g i = g ++ given ∧
      streamBits t.sink.offered ++ t.w.buffered = streamBits s.sink.offered ++ s.w.buffered ++ given

/-- R48, R90: a 16-bit write is issued only by W.BITS and W.BIT, a byte write and a flush request only by W.FLUSH, and a
source read only by R.PEEK, R.BITS and R.BIT; every transaction a command issues is its unit's own, after all earlier
ones (R51). -/
def Obligations.OnlyDataCommandsUseTheStreams : Prop :=
  ∀ (i : Instr) (s t : State), exec i s = .next t →
    (∃ new, t.sink.log = s.sink.log ++ new ∧ ∀ x ∈ new, x.issuer = .unit ∧
      match x.txn with
      | .write16 _ => (∃ b, i = .wBit b) ∨ ∃ w v, i = .wBits w v
      | .write8 _ => i = .wFlush
      | .flush => i = .wFlush) ∧
    (∃ new, t.source.log = s.source.log ++ new ∧ ∀ x ∈ new, x.issuer = .unit ∧
      (i = .rBit ∨ (∃ w, i = .rBits w) ∨ ∃ w, i = .rPeek w))

/-- R182: the bounds on the transactions of one command, those answered and the one in flight together. -/
def Obligations.TransactionsPerCommandAreBounded : Prop :=
  ∀ (i : Instr) (s t : State), s.Inv → exec i s = .next t →
    (t.sink.log.length + (if t.w.busy.isSome ∧ i.unit = .writer then 1 else 0) ≤ s.sink.log.length +
      match i with
      | .wBits _ _ => 1
      | .wBit _ => 1
      | .wFlush => 3
      | _ => 0) ∧
    (t.source.log.length + (if t.r.busy.isSome ∧ i.unit = .reader then 1 else 0) ≤ s.source.log.length +
      match i with
      | .rBits _ => 2
      | .rPeek _ => 2
      | .rBit => 2
      | _ => 0)

/-! ### Lifecycle commands -/

/-- R131, R134: NEW on a detached unit. -/
def Obligations.NewAttachesAFreshUnit : Prop :=
  (∀ s : State, s.fault = 0#8 → s.w.busy = none → s.w.attached = false →
    exec .wNew s = .next { s with
      w := { attached := true, acc := 0#32, filled := 0, failed := false, busy := none }
      sink := closedSink s
      responses := s.responses ++ [okResponse .writer 0#16] }) ∧
  (∀ s : State, s.fault = 0#8 → s.r.busy = none → s.r.attached = false →
    exec .rNew s = .next { s with
      r := { attached := true, acc := 0#32, offset := 32, poisoned := false, busy := none }
      source := closedSource s
      responses := s.responses ++ [okResponse .reader 0#16] })

/-- R132, R135: the accessors respond OK, write no state of the units, issue nothing, and expose the stream, also when the
writer has failed or the reader is poisoned. -/
def Obligations.InnerExposesTheStream : Prop :=
  (∀ s : State, s.fault = 0#8 → s.w.busy = none → s.w.attached = true →
    exec .wInner s = .next { s with
      sink := { s.sink with exposed := true }, responses := s.responses ++ [okResponse .writer 0#16] }) ∧
  (∀ s : State, s.fault = 0#8 → s.r.busy = none → s.r.attached = true →
    exec .rInner s = .next { s with
      source := { s.source with exposed := true }, responses := s.responses ++ [okResponse .reader 0#16] })

/-- R133, R136, R138: UNWRAP detaches, flushes nothing and returns nothing; the buffered bits are lost to the stream. -/
def Obligations.UnwrapDetachesWithoutFlushing : Prop :=
  (∀ s : State, s.fault = 0#8 → s.w.busy = none → s.w.attached = true →
    exec .wUnwrap s = .next { s with
      w := { s.w with attached := false }
      sink := closedSink s
      responses := s.responses ++ [okResponse .writer 0#16] }) ∧
  (∀ s : State, s.fault = 0#8 → s.r.busy = none → s.r.attached = true →
    exec .rUnwrap s = .next { s with
      r := { s.r with attached := false }
      source := closedSource s
      responses := s.responses ++ [okResponse .reader 0#16] })

/-- R137: every command that answers a next state ends its unit's interval, except an INNER that succeeds; and it leaves
the other unit's interval alone. That a command answered with FAULT ends it too is the model's reading (log 9). -/
def Obligations.NextCommandEndsTheInterval : Prop :=
  ∀ (i : Instr) (s t : State), exec i s = .next t →
    (i.unit = .writer → t.source.exposed = s.source.exposed ∧
      (t.sink.exposed = true → i = .wInner ∧ t.fault = 0#8)) ∧
    (i.unit = .reader → t.sink.exposed = s.sink.exposed ∧
      (t.source.exposed = true → i = .rInner ∧ t.fault = 0#8))

/-! ### Reader commands -/

/-- R104: bit `i` of `Extract(w)` is `R.acc[R.offset + i]` for `i < w`, and its bits `w` to 15 are 0; for `w = 0` the
result is 0 whatever the offset. -/
def Obligations.ExtractTakesTheNextBits : Prop :=
  ∀ (acc : Word) (offset w : Nat), w ≤ 16 →
    (∀ i, i < w → (extractField acc offset w).getLsbD i = acc.getLsbD (offset + i)) ∧
    (∀ i, w ≤ i → (extractField acc offset w).getLsbD i = false) ∧
    (w = 0 → extractField acc offset w = 0#16)

/-- R101, R103, R105 to R107: a read makes exactly the fills its field needs (none where the bits are buffered), each
shifting the accumulator down by 8, taking 8 off the offset and inserting its byte at bit 24; the response holds the
extracted field, and the offset advances by the width, or not at all for R.PEEK. Nothing else changes but the end of
the INNER interval (R137). -/
def Obligations.ReadsFetchExactlyTheBytesTheyNeed : Prop :=
  ∀ (c : ReadCmd) (s : State) (bytes : List Byte) (rest : List SourceAnswer), ReaderReady s → c.width ≤ 16 →
    s.r.offset ≤ 32 → bytes.length = fillsNeeded s.r.offset c.width →
    s.source.answers = bytes.map SourceAnswer.byte ++ rest →
    exec c.instr s = .next { s with
      r := { s.r with
        acc := bytes.foldl filledAcc s.r.acc
        offset := s.r.offset - 8 * bytes.length + c.consumed }
      source := {
        answers := rest
        log := s.source.log ++ bytes.map (fun b => { issuer := .unit, answer := .byte b })
        exposed := false }
      responses := s.responses ++
        [okResponse .reader
          (c.data (extractField (bytes.foldl filledAcc s.r.acc) (s.r.offset - 8 * bytes.length) c.width))] }

/-- R28, R101, R103, R113: a read takes from the source exactly as many bytes as its field needs, returns the next bits of
the buffered bits followed by the fetched ones, and leaves the rest buffered in order. -/
def Obligations.ReadsReturnTheNextBits : Prop :=
  ∀ (c : ReadCmd) (s : State) (bytes : List Byte) (rest : List SourceAnswer), ReaderReady s → c.width ≤ 16 →
    s.r.offset ≤ 32 → bytes.length = fillsNeeded s.r.offset c.width →
    s.source.answers = bytes.map SourceAnswer.byte ++ rest →
    ∃ (t : State) (field : Half), exec c.instr s = .next t ∧
      bitsLsb c.width field = (s.r.buffered ++ streamBits bytes).take c.width ∧ field.toNat < 2 ^ c.width ∧
      t.responses = s.responses ++ [okResponse .reader (c.data field)] ∧
      t.r.buffered = (s.r.buffered ++ streamBits bytes).drop c.consumed ∧
      t.source.answers = rest ∧ t.source.fetched = s.source.fetched ++ bytes ∧ t.r.busy = none

/-- R107, R71: R.BIT has the effect of R.BITS `1`, whose one-bit field is already 0 or 1. (Where R.BITS `1` is left waiting
for the source the two states differ in the command they hold.) -/
def Obligations.RBitIsRBitsOfWidthOne : Prop :=
  ∀ s t : State, exec (.rBits 1) s = .next t → t.r.busy = none → exec .rBit s = .next t

/-- R112: a read whose fill fails completes with `END_OF_STREAM` or `IO_ERROR` and no data; the shift and the decrement of
the failed fill stand, so `R.acc[31:24] = 0`; in POISON mode the reader is poisoned. The fills before the failing one
stand too (`bytes`). -/
def Obligations.FailedFillLeavesTheShift : Prop :=
  ∀ (c : ReadCmd) (s : State) (bytes : List Byte) (a : SourceAnswer) (rest : List SourceAnswer), ReaderReady s →
    c.width ≤ 16 → s.r.offset ≤ 32 → bytes.length < fillsNeeded s.r.offset c.width →
    (a = .endOfStream ∨ a = .ioError) → s.source.answers = bytes.map SourceAnswer.byte ++ a :: rest →
    exec c.instr s = .next { s with
      r := { s.r with
        acc := bytes.foldl filledAcc s.r.acc >>> 8
        offset := s.r.offset - 8 * (bytes.length + 1)
        poisoned := s.r.poisoned || s.config.readerFailState == .poison }
      source := {
        answers := rest
        log := s.source.log ++
          (bytes.map (fun b => { issuer := .unit, answer := .byte b }) ++ [{ issuer := .unit, answer := a }])
        exposed := false }
      responses := s.responses ++
        [{ unit := some .reader, word := if a = .endOfStream then 0x02000000#32 else 0x01000000#32 }] }

/-- R112, R115: after a failed fill the buffer holds its old bits, the bytes fetched before the failure and, above them, 8
zero bits the source never held, which a later read returns as if they were a zero byte. -/
def Obligations.FailedFillBuffersEightZeroBits : Prop :=
  ∀ (c : ReadCmd) (s t : State) (bytes : List Byte) (a : SourceAnswer) (rest : List SourceAnswer), ReaderReady s →
    c.width ≤ 16 → s.r.offset ≤ 32 → bytes.length < fillsNeeded s.r.offset c.width →
    (a = .endOfStream ∨ a = .ioError) → s.source.answers = bytes.map SourceAnswer.byte ++ a :: rest →
    exec c.instr s = .next t →
    t.r.buffered = s.r.buffered ++ streamBits bytes ++ List.replicate 8 false

/-- R108: R.SKIP within the buffered bits. -/
def Obligations.SkipAdvancesWithoutFetching : Prop :=
  ∀ (s : State) (w : Nat), ReaderReady s → w ≤ 32 - s.r.offset →
    exec (.rSkip w) s = .next { s with
      r := { s.r with offset := s.r.offset + w }
      source := closedSource s
      responses := s.responses ++ [okResponse .reader 0#16] }

/-- R109: R.SKIP past the buffered bits raises `SKIP_UNDERFLOW`, and there is no other bound on its width: up to the
buffered bits it does not fault. That a skip which faults ends the INNER interval (`closedSource`) is the model's
reading of R137, DEDUCED (log 9). -/
def Obligations.SkipPastTheBufferFaults : Prop :=
  ∀ (s : State) (w : Nat), ReaderReady s →
    (w > 32 - s.r.offset → exec (.rSkip w) s = .next { s with
      fault := 0x06#8
      source := closedSource s
      responses := s.responses ++ [{ unit := some .reader, word := 0x03060000#32 }] }) ∧
    (w ≤ 32 - s.r.offset → ∃ t, exec (.rSkip w) s = .next t ∧ t.fault = 0#8)

/-- R174: after an R.PEEK `w` that completes with OK, an R.SKIP of up to `w` bits cannot fault. -/
def Obligations.SkipAfterPeekCannotFault : Prop :=
  ∀ (s t : State) (w n : Nat) (d : Half), s.fault = 0#8 → exec (.rPeek w) s = .next t →
    t.responses = s.responses ++ [okResponse .reader d] → n ≤ w →
    ∃ u, exec (.rSkip n) t = .next u ∧ u.fault = 0#8 ∧ u.r.offset = t.r.offset + n ∧
      u.responses = t.responses ++ [okResponse .reader 0#16] ∧ u.source.log = t.source.log

/-- R110: R.RESET drops every buffered bit, clears the poison, and writes neither `R.acc` nor the source. It makes no
poison check (R100). -/
def Obligations.ReaderResetDropsTheBuffer : Prop :=
  ∀ s : State, s.fault = 0#8 → s.r.busy = none → s.r.attached = true →
    exec .rReset s = .next { s with
      r := { s.r with offset := 32, poisoned := false }
      source := closedSource s
      responses := s.responses ++ [okResponse .reader 0#16] }

/-- R114: a second R.PEEK right after one that completed with OK fetches nothing and writes no state; with the same width
it returns the same data, with a narrower one the low bits of it. -/
def Obligations.PeekIsIdempotent : Prop :=
  ∀ (s t : State) (w n : Nat) (d : Half), s.fault = 0#8 → exec (.rPeek w) s = .next t →
    t.responses = s.responses ++ [okResponse .reader d] → n ≤ w →
    exec (.rPeek n) t = .next { t with
      responses := t.responses ++ [okResponse .reader (d &&& BitVec.ofNat 16 (2 ^ n - 1))] } ∧
    d &&& BitVec.ofNat 16 (2 ^ w - 1) = d

/-- R113 over a run: since R.NEW or R.RESET, while no fill has failed, the buffered bits are the bits of the bytes fetched
since then without the first `c`, where `c` counts the bits consumed; so `32 - R.offset = 8B - c`, and the next read
starts at bit `c mod 8` of byte `c / 8`. Commands of the writer may stand anywhere in the program. -/
def Obligations.FetchLaw : Prop :=
  ∀ (program : List Instr) (s t : State) (new : List SourceRecord),
    (∀ i ∈ program, i.WellFormed ∧ i ≠ .rNew ∧ i ≠ .rReset ∧ i ≠ .rUnwrap) →
    ReaderReady s → s.r.offset = 32 →
    runProgram program s = .next t → t.fault = 0#8 → t.r.busy = none →
    t.source.log = s.source.log ++ new → (∀ x ∈ new, ∃ b, x.answer = .byte b) →
    ∃ bytes : List Byte, t.source.fetched = s.source.fetched ++ bytes ∧
      (program.map consumedBits).sum ≤ 8 * bytes.length ∧
      32 - t.r.offset = 8 * bytes.length - (program.map consumedBits).sum ∧
      t.r.buffered = (streamBits bytes).drop (program.map consumedBits).sum

/-- R111: the bits of `R.acc` below `R.offset` are unobservable: two states that differ only in them take the same step,
to the same refusal or to states that again differ only in such bits; in particular with the same responses. -/
def Obligations.StaleAccumulatorBitsAreUnobservable : Prop :=
  ∀ s s' : State, SameButStaleBits s s' →
    match step s, step s' with
    | .next t, .next t' => SameButStaleBits t t' ∧ t'.responses = t.responses
    | .refused a, .refused b => a = b
    | _, _ => False

/-- R116: fields of 0 to 15 bits written by W.BITS to a fresh writer and followed by one W.FLUSH, all completing with OK,
come back: a fresh reader whose source holds exactly the bytes the sink accepted returns `v & mask(w)` for each R.BITS
`w` in order, and none of those reads fails. -/
def Obligations.RoundTrip : Prop :=
  ∀ (fields : List (Nat × Half)) (s t : State), (∀ f ∈ fields, f.1 ≤ 15) →
    WriterReady s → s.w.acc = 0#32 → s.w.filled = 0 →
    runProgram (fields.map (fun f => .wBits f.1 f.2) ++ [.wFlush]) s = .next t →
    t.responses = s.responses ++ List.replicate (fields.length + 1) (okResponse .writer 0#16) →
    ∀ u : State, ReaderReady u → u.r.offset = 32 →
      u.source.answers = (t.sink.stream.drop s.sink.stream.length).map SourceAnswer.byte →
      ∃ v : State, runProgram (fields.map (fun f => .rBits f.1)) u = .next v ∧
        v.responses = u.responses ++
          fields.map (fun f => okResponse .reader (f.2 &&& BitVec.ofNat 16 (2 ^ f.1 - 1)))

/-! ### The units, the streams and the host -/

/-- R35, R31: a command of one unit leaves the other unit and its stream as they are, and no command writes the parameters
or the host's inputs. -/
def Obligations.CommandsLeaveTheOtherUnitAlone : Prop :=
  ∀ (i : Instr) (s t : State), exec i s = .next t →
    (i.unit = .writer → t.r = s.r ∧ t.source = s.source) ∧ (i.unit = .reader → t.w = s.w ∧ t.sink = s.sink) ∧
    t.config = s.config ∧ t.inputs = s.inputs

/-- R35: what a writer command does and responds depends on nothing of the reader but `FAULT`, which they share. -/
def Obligations.WriterCommandsDoNotReadReaderState : Prop :=
  ∀ (i : Instr) (s s' : State), i.unit = .writer → s.w = s'.w → s.sink = s'.sink → s.fault = s'.fault →
    match exec i s, exec i s' with
    | .next t, .next t' => t.w = t'.w ∧ t.sink = t'.sink ∧ t.fault = t'.fault ∧
        ∃ new, t.responses = s.responses ++ new ∧ t'.responses = s'.responses ++ new
    | .refused a, .refused b => a = b
    | _, _ => False

/-- R35: what a reader command does and responds depends on nothing of the writer but `FAULT`, which they share. -/
def Obligations.ReaderCommandsDoNotReadWriterState : Prop :=
  ∀ (i : Instr) (s s' : State), i.unit = .reader → s.r = s'.r → s.source = s'.source → s.fault = s'.fault →
    s.config = s'.config →
    match exec i s, exec i s' with
    | .next t, .next t' => t.r = t'.r ∧ t.source = t'.source ∧ t.fault = t'.fault ∧
        ∃ new, t.responses = s.responses ++ new ∧ t'.responses = s'.responses ++ new
    | .refused a, .refused b => a = b
    | _, _ => False

/-- R69, R180 (U12): a command word to a unit that has not responded is given no step. R162: with nothing to come, a
command in flight waits for ever: a step that leaves the state as it is, the model's choice (log 15). -/
def Obligations.UnitTakesOneCommandAtATime : Prop :=
  (∀ (i : Instr) (s : State), unitIsBusy i.unit s = true → exec i s = .refused (.unitBusy i.unit)) ∧
  (∀ s : State, s.inputs = [] → step s = .next s)

/-- R51, R162: an answer that arrives while a command waits resumes it: the step ends where the command would have ended
had the answer been ready when it was issued. The list of answers and the transaction in flight are the model's form
(logs 2, 6). -/
def Obligations.LateAnswerResumesTheCommand : Prop :=
  (∀ (i : Instr) (s t : State) (a : SinkAnswer) (rest : List Input), i.unit = .writer → exec i s = .next t →
    t.w.busy ≠ none → t.inputs = .sinkAnswer a :: rest →
    step t = exec i { s with inputs := rest, sink := { s.sink with answers := s.sink.answers ++ [a] } }) ∧
  (∀ (i : Instr) (s t : State) (a : SourceAnswer) (rest : List Input), i.unit = .reader → exec i s = .next t →
    t.r.busy ≠ none → t.inputs = .sourceAnswer a :: rest →
    step t = exec i { s with inputs := rest, source := { s.source with answers := s.source.answers ++ [a] } })

/-- R41, R42, R49, R50: the sink stream only grows and the source is never rewound: no step but the connection of another
stream takes back a byte accepted or taken. -/
def Obligations.StreamsOnlyGoForward : Prop :=
  ∀ s t : State, step s = .next t →
    ((∀ as, s.inputs.head? ≠ some (.connectSink as)) → s.sink.stream <+: t.sink.stream) ∧
    ((∀ as, s.inputs.head? ≠ some (.connectSource as)) → s.source.taken <+: t.source.taken)

/-- R43, R44, R10: bit `k` of a byte stream is bit `k mod 8` of byte `k / 8`, and `SinkWrite16LE(h)` carries `h[7:0]` and
then `h[15:8]`, so that its 16 bits stand in the stream in the order of `h`. -/
def Obligations.WireFormatIsLsbFirst : Prop :=
  (∀ (bytes : List Byte) (k : Nat) (b : Byte), bytes[k / 8]? = some b →
    (streamBits bytes)[k]? = some (b.getLsbD (k % 8))) ∧
  (∀ h : Half, (SinkTxn.write16 h).bytes = [h.setWidth 8, (h >>> 8).setWidth 8] ∧
    streamBits (SinkTxn.write16 h).bytes = bitsLsb 16 h)

/-- R137 (U13): the host's own sink transaction and source read are given a step only in the unit's interval, or while the
unit owns no stream; they change no unit, and with no answer ready the host waits (log 10). -/
def Obligations.HostUsesAnExposedStreamOnly : Prop :=
  (∀ (s : State) (x : SinkTxn) (a : SinkAnswer) (rest : List Input) (as : List SinkAnswer),
    s.inputs = .hostSink x :: rest →
    (s.sink.exposed = false → s.w.attached = true → step s = .refused (.streamNotExposed .writer)) ∧
    ((s.sink.exposed = true ∨ s.w.attached = false) → s.sink.answers = a :: as →
      step s = .next { s with
        inputs := rest
        sink := { s.sink with
          answers := as, log := s.sink.log ++ [{ issuer := .host, txn := x, answer := a }] } }) ∧
    ((s.sink.exposed = true ∨ s.w.attached = false) → s.sink.answers = [] → step s = .next s)) ∧
  (∀ (s : State) (a : SourceAnswer) (rest : List Input) (as : List SourceAnswer), s.inputs = .hostSource :: rest →
    (s.source.exposed = false → s.r.attached = true → step s = .refused (.streamNotExposed .reader)) ∧
    ((s.source.exposed = true ∨ s.r.attached = false) → s.source.answers = a :: as →
      step s = .next { s with
        inputs := rest
        source := { s.source with answers := as, log := s.source.log ++ [{ issuer := .host, answer := a }] } }) ∧
    ((s.source.exposed = true ∨ s.r.attached = false) → s.source.answers = [] → step s = .next s))

/-- R56, R178: a byte the host takes from the exposed source is skipped by the reader's next fill, and bits the reader
already buffered are not affected: after the host took `a`, a read returns the buffered bits and after them those of
the bytes that follow `a`, for every count of buffered bits, every read, and however many fills it needs. -/
def Obligations.HostReadIsSkippedByTheNextFill : Prop :=
  ∀ (c : ReadCmd) (s : State) (a : Byte) (bytes : List Byte) (rest : List Input) (as : List SourceAnswer),
    ReaderReady s → s.source.exposed = true → s.r.offset ≤ 32 → c.width ≤ 16 →
    bytes.length = fillsNeeded s.r.offset c.width → s.inputs = .hostSource :: rest →
    s.source.answers = .byte a :: (bytes.map SourceAnswer.byte ++ as) →
    ∃ (t u : State) (field : Half), step s = .next t ∧ t.r = s.r ∧ t.responses = s.responses ∧
      t.source.taken = s.source.taken ++ [a] ∧ exec c.instr t = .next u ∧
      bitsLsb c.width field = (s.r.buffered ++ streamBits bytes).take c.width ∧ field.toNat < 2 ^ c.width ∧
      u.responses = s.responses ++ [okResponse .reader (c.data field)] ∧
      u.r.buffered = (s.r.buffered ++ streamBits bytes).drop c.consumed ∧
      u.source.taken = s.source.taken ++ a :: bytes ∧ u.source.answers = as

/-! ### Whole-machine rules -/

/-- R24, R25, R29, R152: the invariant holds after power-on reset, for both values of the open parameter. -/
def Obligations.InvariantHoldsAfterReset : Prop := ∀ c : Config, (State.resetWith c).Inv

/-- R24, R25, R29, R152: every step keeps the invariant: `W.acc < 2^W.filled`, `W.filled` at most 15 between commands of a
writer that has not failed while no fault is latched (log 8) and at most 30 ever, `R.offset` from 9 to 32, a fault code of the table, and a unit waits
only for an owned stream without an answer. -/
def Obligations.EveryStepKeepsTheInvariant : Prop := ∀ s t : State, s.Inv → step s = .next t → t.Inv

/-- R157 to R159, U12, U13: the machine never stops by itself: every step answers a next state, or refuses an input the
spec gives a model no step for, and it refuses exactly these: a command word to a unit that has not responded (R69), the
host's own transaction on a stream that a unit owns outside an INNER interval (R137), a stream connected over an owned
one. That a stream is not connected over an owned one is the model's reading of R130 (log 11); which unit an illegal
word goes to is too (log 7). -/
def Obligations.StepStopsOnlyOnRefusedInputs : Prop :=
  ∀ s : State,
    ((∃ t, step s = .next t) ∨ (∃ u, step s = .refused (.unitBusy u)) ∨
      (∃ u, step s = .refused (.streamNotExposed u)) ∨ ∃ u, step s = .refused (.streamOwned u)) ∧
    (∀ u, step s = .refused (.unitBusy u) ↔
      ∃ word, s.inputs.head? = some (.command word) ∧ selectUnit word = some u ∧ unitIsBusy u s = true) ∧
    (step s = .refused (.streamNotExposed .writer) ↔
      (∃ x, s.inputs.head? = some (.hostSink x)) ∧ s.w.attached = true ∧ s.sink.exposed = false) ∧
    (step s = .refused (.streamNotExposed .reader) ↔
      s.inputs.head? = some .hostSource ∧ s.r.attached = true ∧ s.source.exposed = false) ∧
    (step s = .refused (.streamOwned .writer) ↔
      (∃ as, s.inputs.head? = some (.connectSink as)) ∧ s.w.attached = true) ∧
    (step s = .refused (.streamOwned .reader) ↔
      (∃ as, s.inputs.head? = some (.connectSource as)) ∧ s.r.attached = true)

/-- R6: nothing writes the parameters; R69 (U12): a command in flight is given up only by a power-on reset or finished by
answers of its own stream. That a power-on reset drops it, and its
transaction with it, is the model's reading (logs 12, 22). -/
def Obligations.ParametersAndWaitingCommandsStand : Prop :=
  ∀ s t : State, step s = .next t → t.config = s.config ∧
    (∀ p, s.w.busy = some p → (∀ a, s.inputs.head? ≠ some (.sinkAnswer a)) → s.inputs.head? ≠ some .powerOn →
      t.w = s.w) ∧
    (∀ c, s.r.busy = some c → (∀ a, s.inputs.head? ≠ some (.sourceAnswer a)) → s.inputs.head? ≠ some .powerOn →
      t.r = s.r)
end

