-- ==== Sys2Proof/Laws/Bits.lean ====
section
/-! SUPPORT. The bits of masks, of appended and extracted fields, and of byte streams. -/

namespace Sys2Proof.Machine

open Sys2Proof

/-- The bits of `mask(w)` (R8). -/
theorem mask_getLsbD {n w : Nat} (h : w ≤ n) (k : Nat) : (mask n w).getLsbD k = decide (k < w) := by
  simp only [mask, BitVec.getLsbD_ofNat, Nat.testBit_two_pow_sub_one]
  by_cases hk : k < w
  · simp [hk, show k < n by omega]
  · simp [hk]

/-- `mask(w)` as a number (R8). -/
theorem mask_toNat {n w : Nat} (h : w ≤ n) : (mask n w).toNat = 2 ^ w - 1 := by
  rw [mask, BitVec.toNat_ofNat]
  have h1 : 2 ^ w ≤ 2 ^ n := Nat.pow_le_pow_right (by omega) h
  have h2 : 0 < 2 ^ w := by positivity
  exact Nat.mod_eq_of_lt (by omega)

/-- Masking with `mask(w)` leaves a number below `2^w`. -/
theorem and_mask_lt (v : Half) {w : Nat} (h : w ≤ 16) : (v &&& mask 16 w).toNat < 2 ^ w := by
  rw [BitVec.toNat_and, mask_toNat h, Nat.and_two_pow_sub_one_eq_mod]
  exact Nat.mod_lt _ (by positivity)

/-- The bits of the accumulator after an append: those it held, and from `filled` on those of the field (R83). -/
theorem appendField_getLsbD (acc : Word) (filled : Nat) {w : Nat} (v : Half) (h : w ≤ 16) {k : Nat} (hk : k < 32) :
    (appendField acc filled w v).getLsbD k =
      (acc.getLsbD k || (decide (filled ≤ k ∧ k < filled + w) && v.getLsbD (k - filled))) := by
  simp only [appendField, BitVec.getLsbD_or, BitVec.getLsbD_shiftLeft, BitVec.getLsbD_setWidth, BitVec.getLsbD_and,
    mask_getLsbD h]
  congr 1
  by_cases h1 : filled ≤ k
  · by_cases h2 : k - filled < w
    · simp [h1, h2, hk, show ¬ k < filled by omega, show k - filled < 32 by omega, show k < filled + w by omega]
    · simp [h2, show ¬ k < filled + w by omega]
  · simp [h1, show k < filled by omega]

/-- An append keeps the bits above the count clear (R24). -/
theorem appendField_lt {acc : Word} {filled w : Nat} (v : Half) (hacc : acc.toNat < 2 ^ filled) (h : w ≤ 16) :
    (appendField acc filled w v).toNat < 2 ^ (filled + w) := by
  rw [appendField, BitVec.toNat_or, BitVec.toNat_shiftLeft, BitVec.toNat_setWidth]
  have hm := and_mask_lt v h
  apply Nat.or_lt_two_pow
  · exact lt_of_lt_of_le hacc (Nat.pow_le_pow_right (by omega) (by omega))
  · refine lt_of_le_of_lt (Nat.mod_le _ _) ?_
    rw [Nat.shiftLeft_eq, Nat.mod_eq_of_lt (by omega), pow_add, mul_comm]
    exact Nat.mul_lt_mul_of_pos_left hm (by positivity)

/-- A shift right by `k` clears `k` more bits from the top. -/
theorem ushiftRight_lt {acc : Word} {n : Nat} (k : Nat) (h : acc.toNat < 2 ^ n) :
    (acc >>> k).toNat < 2 ^ (n - k) := by
  rw [BitVec.toNat_ushiftRight, Nat.shiftRight_eq_div_pow]
  by_cases hk : k ≤ n
  · rw [Nat.div_lt_iff_lt_mul (by positivity), ← pow_add, Nat.sub_add_cancel hk]
    exact h
  · have : acc.toNat < 2 ^ k := lt_of_lt_of_le h (Nat.pow_le_pow_right (by omega) (by omega))
    rw [Nat.div_eq_of_lt this]
    positivity

/-- The byte drained next is the low byte. -/
theorem drainByte_eq (acc : Word) : drainByte acc = acc.setWidth 8 := by
  apply BitVec.eq_of_getLsbD_eq
  intro i hi
  simp [drainByte]

/-- The chunk emitted is the low 16 bits. -/
theorem emitChunkOf_eq (acc : Word) : emitChunkOf acc = acc.setWidth 16 := by
  apply BitVec.eq_of_getLsbD_eq
  intro i hi
  simp [emitChunkOf]

@[simp] theorem bitsLsb_length {n : Nat} (w : Nat) (x : BitVec n) : (bitsLsb w x).length = w := by
  simp [bitsLsb]

/-- The bits of a value in wire order (R43). -/
theorem bitsLsb_getElem? {n : Nat} {w : Nat} (x : BitVec n) {k : Nat} (h : k < w) :
    (bitsLsb w x)[k]? = some (x.getLsbD k) := by
  simp [bitsLsb, h]

@[simp] theorem streamBits_nil : streamBits [] = [] := rfl

@[simp] theorem streamBits_cons (b : Byte) (bs : List Byte) : streamBits (b :: bs) = bitsLsb 8 b ++ streamBits bs := by
  simp [streamBits]

@[simp] theorem streamBits_append (as bs : List Byte) : streamBits (as ++ bs) = streamBits as ++ streamBits bs := by
  simp [streamBits]

@[simp] theorem streamBits_length (bs : List Byte) : (streamBits bs).length = 8 * bs.length := by
  induction bs with
  | nil => rfl
  | cons b bs ih => simp [ih]; omega

end Sys2Proof.Machine
end

