-- ==== Sys2Proof/Laws/Decode.lean ====
section
/-! SUPPORT. The fields of a packed command word, and the opcode map read both ways. -/

namespace Sys2Proof

/-- The bits of a packed word, field by field (R60). -/
theorem packWord_getLsbD (opc : Byte) (w : BitVec 5) (v : Half) (k : Nat) :
    (packWord opc w v).getLsbD k =
      if k < 16 then v.getLsbD k
      else if k < 21 then w.getLsbD (k - 16)
      else if k < 24 then false
      else opc.getLsbD (k - 24) := by
  simp only [packWord, BitVec.getLsbD_or, BitVec.getLsbD_shiftLeft, BitVec.getLsbD_setWidth]
  split
  · rename_i h
    simp [h, show k < 24 by omega, show k < 32 by omega]
  · rename_i h1
    rw [BitVec.getLsbD_of_ge v k (by omega)]
    split
    · rename_i h
      simp [h1, show k < 24 by omega, show k < 32 by omega]
      omega
    · rename_i h2
      rw [BitVec.getLsbD_of_ge w _ (by omega)]
      split
      · rename_i h
        simp [h]
      · rename_i h
        simp only [h, decide_false, Bool.not_false, Bool.and_true, Bool.and_false, Bool.or_false]
        by_cases h5 : k < 32
        · simp [h5]
          omega
        · rw [BitVec.getLsbD_of_ge opc _ (by omega)]
          simp

@[simp] theorem opcField_packWord (opc : Byte) (w : BitVec 5) (v : Half) : opcField (packWord opc w v) = opc := by
  apply BitVec.eq_of_getLsbD_eq
  intro i hi
  simp only [opcField, BitVec.getLsbD_extractLsb', packWord_getLsbD]
  simp [hi, show ¬ 24 + i < 16 by omega, show ¬ 24 + i < 21 by omega]

@[simp] theorem rsvField_packWord (opc : Byte) (w : BitVec 5) (v : Half) : rsvField (packWord opc w v) = 0#3 := by
  apply BitVec.eq_of_getLsbD_eq
  intro i hi
  simp only [rsvField, BitVec.getLsbD_extractLsb', packWord_getLsbD]
  simp [show ¬ 21 + i < 16 by omega, show 21 + i < 24 by omega]

@[simp] theorem wField_packWord (opc : Byte) (w : BitVec 5) (v : Half) : wField (packWord opc w v) = w := by
  apply BitVec.eq_of_getLsbD_eq
  intro i hi
  simp only [wField, BitVec.getLsbD_extractLsb', packWord_getLsbD]
  simp [hi, show 16 + i < 21 by omega]

@[simp] theorem vField_packWord (opc : Byte) (w : BitVec 5) (v : Half) : vField (packWord opc w v) = v := by
  apply BitVec.eq_of_getLsbD_eq
  intro i hi
  simp only [vField, BitVec.getLsbD_extractLsb', packWord_getLsbD]
  simp [hi]

/-- A word with `RSV = 0` is its fields packed. -/
theorem packWord_fields (word : Word) (h : rsvField word = 0#3) :
    packWord (opcField word) (wField word) (vField word) = word := by
  have hr : ∀ k, k < 3 → word.getLsbD (21 + k) = false := by
    intro k hk
    have := congrArg (fun x => x.getLsbD k) h
    simpa [rsvField, hk] using this
  apply BitVec.eq_of_getLsbD_eq
  intro i hi
  rw [packWord_getLsbD]
  simp only [opcField, wField, vField, BitVec.getLsbD_extractLsb']
  split
  · simp [*]
  split
  · simp [show i - 16 < 5 by omega, show 16 + (i - 16) = i by omega]
  split
  · have := hr (i - 21) (by omega)
    rw [show 21 + (i - 21) = i by omega] at this
    exact this.symm
  · simp [show i - 24 < 8 by omega, show 24 + (i - 24) = i by omega]

/-- The opcode map finds every assigned opcode (R62). -/
@[simp] theorem Opcode.ofBits_bits (op : Opcode) : Opcode.ofBits op.bits = some op := by
  cases op <;> rfl

/-- The opcode map finds nothing else (R64). -/
theorem Opcode.bits_of_ofBits {opc : Byte} {op : Opcode} (h : Opcode.ofBits opc = some op) : op.bits = opc := by
  simpa using List.find?_some h

/-- Decoding a packed word is the field checks on what was packed (R68). -/
theorem decode_packWord (op : Opcode) (w : BitVec 5) (v : Half) :
    decode (packWord op.bits w v) = decodeFields op 0#3 w v := by
  simp [decode]

/-- A legal word selects the unit of its command (R62). -/
theorem selectUnit_of_decode {word : Word} {i : Instr} (h : decode word = .instr i) :
    selectUnit word = some i.unit := by
  unfold decode at h
  split at h
  · cases h
  · rename_i op hop
    have hb := Opcode.bits_of_ofBits hop
    unfold decodeFields at h
    split at h
    · cases h
    split at h
    · cases h
    split at h
    · cases h
    · simp only [Decoded.instr.injEq] at h
      subst h
      rw [selectUnit, ← hb]
      cases op <;> rfl

end Sys2Proof
end

