-- ==== Sys2Proof/Laws/State.lean ====
section
/-! SUPPORT. One lemma per field per update of `State`. -/

namespace Sys2Proof.Machine

@[simp] theorem State.setW_config (s : State) (x : WriterUnit) : (s.setW x).config = s.config := rfl
@[simp] theorem State.setW_w (s : State) (x : WriterUnit) : (s.setW x).w = x := rfl
@[simp] theorem State.setW_r (s : State) (x : WriterUnit) : (s.setW x).r = s.r := rfl
@[simp] theorem State.setW_fault (s : State) (x : WriterUnit) : (s.setW x).fault = s.fault := rfl
@[simp] theorem State.setW_sink (s : State) (x : WriterUnit) : (s.setW x).sink = s.sink := rfl
@[simp] theorem State.setW_source (s : State) (x : WriterUnit) : (s.setW x).source = s.source := rfl
@[simp] theorem State.setW_inputs (s : State) (x : WriterUnit) : (s.setW x).inputs = s.inputs := rfl
@[simp] theorem State.setW_responses (s : State) (x : WriterUnit) : (s.setW x).responses = s.responses := rfl

@[simp] theorem State.setR_config (s : State) (x : ReaderUnit) : (s.setR x).config = s.config := rfl
@[simp] theorem State.setR_w (s : State) (x : ReaderUnit) : (s.setR x).w = s.w := rfl
@[simp] theorem State.setR_r (s : State) (x : ReaderUnit) : (s.setR x).r = x := rfl
@[simp] theorem State.setR_fault (s : State) (x : ReaderUnit) : (s.setR x).fault = s.fault := rfl
@[simp] theorem State.setR_sink (s : State) (x : ReaderUnit) : (s.setR x).sink = s.sink := rfl
@[simp] theorem State.setR_source (s : State) (x : ReaderUnit) : (s.setR x).source = s.source := rfl
@[simp] theorem State.setR_inputs (s : State) (x : ReaderUnit) : (s.setR x).inputs = s.inputs := rfl
@[simp] theorem State.setR_responses (s : State) (x : ReaderUnit) : (s.setR x).responses = s.responses := rfl

@[simp] theorem State.setFault_config (s : State) (x : Byte) : (s.setFault x).config = s.config := rfl
@[simp] theorem State.setFault_w (s : State) (x : Byte) : (s.setFault x).w = s.w := rfl
@[simp] theorem State.setFault_r (s : State) (x : Byte) : (s.setFault x).r = s.r := rfl
@[simp] theorem State.setFault_fault (s : State) (x : Byte) : (s.setFault x).fault = x := rfl
@[simp] theorem State.setFault_sink (s : State) (x : Byte) : (s.setFault x).sink = s.sink := rfl
@[simp] theorem State.setFault_source (s : State) (x : Byte) : (s.setFault x).source = s.source := rfl
@[simp] theorem State.setFault_inputs (s : State) (x : Byte) : (s.setFault x).inputs = s.inputs := rfl
@[simp] theorem State.setFault_responses (s : State) (x : Byte) : (s.setFault x).responses = s.responses := rfl

@[simp] theorem State.setSink_config (s : State) (x : SinkPort) : (s.setSink x).config = s.config := rfl
@[simp] theorem State.setSink_w (s : State) (x : SinkPort) : (s.setSink x).w = s.w := rfl
@[simp] theorem State.setSink_r (s : State) (x : SinkPort) : (s.setSink x).r = s.r := rfl
@[simp] theorem State.setSink_fault (s : State) (x : SinkPort) : (s.setSink x).fault = s.fault := rfl
@[simp] theorem State.setSink_sink (s : State) (x : SinkPort) : (s.setSink x).sink = x := rfl
@[simp] theorem State.setSink_source (s : State) (x : SinkPort) : (s.setSink x).source = s.source := rfl
@[simp] theorem State.setSink_inputs (s : State) (x : SinkPort) : (s.setSink x).inputs = s.inputs := rfl
@[simp] theorem State.setSink_responses (s : State) (x : SinkPort) : (s.setSink x).responses = s.responses := rfl

@[simp] theorem State.setSource_config (s : State) (x : SourcePort) : (s.setSource x).config = s.config := rfl
@[simp] theorem State.setSource_w (s : State) (x : SourcePort) : (s.setSource x).w = s.w := rfl
@[simp] theorem State.setSource_r (s : State) (x : SourcePort) : (s.setSource x).r = s.r := rfl
@[simp] theorem State.setSource_fault (s : State) (x : SourcePort) : (s.setSource x).fault = s.fault := rfl
@[simp] theorem State.setSource_sink (s : State) (x : SourcePort) : (s.setSource x).sink = s.sink := rfl
@[simp] theorem State.setSource_source (s : State) (x : SourcePort) : (s.setSource x).source = x := rfl
@[simp] theorem State.setSource_inputs (s : State) (x : SourcePort) : (s.setSource x).inputs = s.inputs := rfl
@[simp] theorem State.setSource_responses (s : State) (x : SourcePort) : (s.setSource x).responses = s.responses := rfl

@[simp] theorem State.setInputs_config (s : State) (x : List Input) : (s.setInputs x).config = s.config := rfl
@[simp] theorem State.setInputs_w (s : State) (x : List Input) : (s.setInputs x).w = s.w := rfl
@[simp] theorem State.setInputs_r (s : State) (x : List Input) : (s.setInputs x).r = s.r := rfl
@[simp] theorem State.setInputs_fault (s : State) (x : List Input) : (s.setInputs x).fault = s.fault := rfl
@[simp] theorem State.setInputs_sink (s : State) (x : List Input) : (s.setInputs x).sink = s.sink := rfl
@[simp] theorem State.setInputs_source (s : State) (x : List Input) : (s.setInputs x).source = s.source := rfl
@[simp] theorem State.setInputs_inputs (s : State) (x : List Input) : (s.setInputs x).inputs = x := rfl
@[simp] theorem State.setInputs_responses (s : State) (x : List Input) : (s.setInputs x).responses = s.responses := rfl

@[simp] theorem State.pushResponse_config (s : State) (x : Response) : (s.pushResponse x).config = s.config := rfl
@[simp] theorem State.pushResponse_w (s : State) (x : Response) : (s.pushResponse x).w = s.w := rfl
@[simp] theorem State.pushResponse_r (s : State) (x : Response) : (s.pushResponse x).r = s.r := rfl
@[simp] theorem State.pushResponse_fault (s : State) (x : Response) : (s.pushResponse x).fault = s.fault := rfl
@[simp] theorem State.pushResponse_sink (s : State) (x : Response) : (s.pushResponse x).sink = s.sink := rfl
@[simp] theorem State.pushResponse_source (s : State) (x : Response) : (s.pushResponse x).source = s.source := rfl
@[simp] theorem State.pushResponse_inputs (s : State) (x : Response) : (s.pushResponse x).inputs = s.inputs := rfl
@[simp] theorem State.pushResponse_responses (s : State) (x : Response) : (s.pushResponse x).responses = s.responses ++ [x] := rfl

@[simp] theorem State.setW_setW (s : State) (x y : WriterUnit) : (s.setW x).setW y = s.setW y := rfl
@[simp] theorem State.setW_self (s : State) : s.setW s.w = s := rfl
@[simp] theorem State.setR_setR (s : State) (x y : ReaderUnit) : (s.setR x).setR y = s.setR y := rfl
@[simp] theorem State.setR_self (s : State) : s.setR s.r = s := rfl
@[simp] theorem State.setFault_setFault (s : State) (x y : Byte) : (s.setFault x).setFault y = s.setFault y := rfl
@[simp] theorem State.setFault_self (s : State) : s.setFault s.fault = s := rfl
@[simp] theorem State.setSink_setSink (s : State) (x y : SinkPort) : (s.setSink x).setSink y = s.setSink y := rfl
@[simp] theorem State.setSink_self (s : State) : s.setSink s.sink = s := rfl
@[simp] theorem State.setSource_setSource (s : State) (x y : SourcePort) : (s.setSource x).setSource y = s.setSource y := rfl
@[simp] theorem State.setSource_self (s : State) : s.setSource s.source = s := rfl
@[simp] theorem State.setInputs_setInputs (s : State) (x y : List Input) : (s.setInputs x).setInputs y = s.setInputs y := rfl
@[simp] theorem State.setInputs_self (s : State) : s.setInputs s.inputs = s := rfl

end Sys2Proof.Machine
end

