-- ==== Sys2Proof/Laws/Ops.lean ====
section
/-! SUPPORT. What the shared operations do, said once: their frames, the cases of a command, and the laws of the pumps. -/

namespace Sys2Proof.Machine

open Sys2Proof

/-! ### Frames of the small operations -/

@[simp] theorem respondOk_config (u : UnitId) (d : Half) (s : State) : (respondOk u d s).config = s.config := rfl
@[simp] theorem respondOk_w (u : UnitId) (d : Half) (s : State) : (respondOk u d s).w = s.w := rfl
@[simp] theorem respondOk_r (u : UnitId) (d : Half) (s : State) : (respondOk u d s).r = s.r := rfl
@[simp] theorem respondOk_fault (u : UnitId) (d : Half) (s : State) : (respondOk u d s).fault = s.fault := rfl
@[simp] theorem respondOk_sink (u : UnitId) (d : Half) (s : State) : (respondOk u d s).sink = s.sink := rfl
@[simp] theorem respondOk_source (u : UnitId) (d : Half) (s : State) : (respondOk u d s).source = s.source := rfl
@[simp] theorem respondOk_inputs (u : UnitId) (d : Half) (s : State) : (respondOk u d s).inputs = s.inputs := rfl
@[simp] theorem respondOk_responses (u : UnitId) (d : Half) (s : State) : (respondOk u d s).responses = s.responses ++ [{ unit := some u, word := responseWord .ok 0#8 d }] := rfl

@[simp] theorem respondIoError_config (u : UnitId) (s : State) : (respondIoError u s).config = s.config := rfl
@[simp] theorem respondIoError_w (u : UnitId) (s : State) : (respondIoError u s).w = s.w := rfl
@[simp] theorem respondIoError_r (u : UnitId) (s : State) : (respondIoError u s).r = s.r := rfl
@[simp] theorem respondIoError_fault (u : UnitId) (s : State) : (respondIoError u s).fault = s.fault := rfl
@[simp] theorem respondIoError_sink (u : UnitId) (s : State) : (respondIoError u s).sink = s.sink := rfl
@[simp] theorem respondIoError_source (u : UnitId) (s : State) : (respondIoError u s).source = s.source := rfl
@[simp] theorem respondIoError_inputs (u : UnitId) (s : State) : (respondIoError u s).inputs = s.inputs := rfl
@[simp] theorem respondIoError_responses (u : UnitId) (s : State) : (respondIoError u s).responses = s.responses ++ [{ unit := some u, word := responseWord .ioError 0#8 0#16 }] := rfl

@[simp] theorem respondEndOfStream_config (u : UnitId) (s : State) : (respondEndOfStream u s).config = s.config := rfl
@[simp] theorem respondEndOfStream_w (u : UnitId) (s : State) : (respondEndOfStream u s).w = s.w := rfl
@[simp] theorem respondEndOfStream_r (u : UnitId) (s : State) : (respondEndOfStream u s).r = s.r := rfl
@[simp] theorem respondEndOfStream_fault (u : UnitId) (s : State) : (respondEndOfStream u s).fault = s.fault := rfl
@[simp] theorem respondEndOfStream_sink (u : UnitId) (s : State) : (respondEndOfStream u s).sink = s.sink := rfl
@[simp] theorem respondEndOfStream_source (u : UnitId) (s : State) : (respondEndOfStream u s).source = s.source := rfl
@[simp] theorem respondEndOfStream_inputs (u : UnitId) (s : State) : (respondEndOfStream u s).inputs = s.inputs := rfl
@[simp] theorem respondEndOfStream_responses (u : UnitId) (s : State) : (respondEndOfStream u s).responses = s.responses ++ [{ unit := some u, word := responseWord .endOfStream 0#8 0#16 }] := rfl

@[simp] theorem respondFault_config (u : Option UnitId) (s : State) : (respondFault u s).config = s.config := rfl
@[simp] theorem respondFault_w (u : Option UnitId) (s : State) : (respondFault u s).w = s.w := rfl
@[simp] theorem respondFault_r (u : Option UnitId) (s : State) : (respondFault u s).r = s.r := rfl
@[simp] theorem respondFault_fault (u : Option UnitId) (s : State) : (respondFault u s).fault = s.fault := rfl
@[simp] theorem respondFault_sink (u : Option UnitId) (s : State) : (respondFault u s).sink = s.sink := rfl
@[simp] theorem respondFault_source (u : Option UnitId) (s : State) : (respondFault u s).source = s.source := rfl
@[simp] theorem respondFault_inputs (u : Option UnitId) (s : State) : (respondFault u s).inputs = s.inputs := rfl
@[simp] theorem respondFault_responses (u : Option UnitId) (s : State) : (respondFault u s).responses = s.responses ++ [{ unit := u, word := responseWord .fault s.fault 0#16 }] := rfl

@[simp] theorem raiseFault_config (u : Option UnitId) (c : FaultCode) (s : State) : (raiseFault u c s).config = s.config := rfl
@[simp] theorem raiseFault_w (u : Option UnitId) (c : FaultCode) (s : State) : (raiseFault u c s).w = s.w := rfl
@[simp] theorem raiseFault_r (u : Option UnitId) (c : FaultCode) (s : State) : (raiseFault u c s).r = s.r := rfl
@[simp] theorem raiseFault_fault (u : Option UnitId) (c : FaultCode) (s : State) : (raiseFault u c s).fault = c.code := rfl
@[simp] theorem raiseFault_sink (u : Option UnitId) (c : FaultCode) (s : State) : (raiseFault u c s).sink = s.sink := rfl
@[simp] theorem raiseFault_source (u : Option UnitId) (c : FaultCode) (s : State) : (raiseFault u c s).source = s.source := rfl
@[simp] theorem raiseFault_inputs (u : Option UnitId) (c : FaultCode) (s : State) : (raiseFault u c s).inputs = s.inputs := rfl
@[simp] theorem raiseFault_responses (u : Option UnitId) (c : FaultCode) (s : State) : (raiseFault u c s).responses = s.responses ++ [{ unit := u, word := responseWord .fault c.code 0#16 }] := rfl

@[simp] theorem closeInterval_writer_config (s : State) : (closeInterval .writer s).config = s.config := rfl
@[simp] theorem closeInterval_writer_w (s : State) : (closeInterval .writer s).w = s.w := rfl
@[simp] theorem closeInterval_writer_r (s : State) : (closeInterval .writer s).r = s.r := rfl
@[simp] theorem closeInterval_writer_fault (s : State) : (closeInterval .writer s).fault = s.fault := rfl
@[simp] theorem closeInterval_writer_sink (s : State) : (closeInterval .writer s).sink = { s.sink with exposed := false } := rfl
@[simp] theorem closeInterval_writer_source (s : State) : (closeInterval .writer s).source = s.source := rfl
@[simp] theorem closeInterval_writer_inputs (s : State) : (closeInterval .writer s).inputs = s.inputs := rfl
@[simp] theorem closeInterval_writer_responses (s : State) : (closeInterval .writer s).responses = s.responses := rfl

@[simp] theorem closeInterval_reader_config (s : State) : (closeInterval .reader s).config = s.config := rfl
@[simp] theorem closeInterval_reader_w (s : State) : (closeInterval .reader s).w = s.w := rfl
@[simp] theorem closeInterval_reader_r (s : State) : (closeInterval .reader s).r = s.r := rfl
@[simp] theorem closeInterval_reader_fault (s : State) : (closeInterval .reader s).fault = s.fault := rfl
@[simp] theorem closeInterval_reader_sink (s : State) : (closeInterval .reader s).sink = s.sink := rfl
@[simp] theorem closeInterval_reader_source (s : State) : (closeInterval .reader s).source = { s.source with exposed := false } := rfl
@[simp] theorem closeInterval_reader_inputs (s : State) : (closeInterval .reader s).inputs = s.inputs := rfl
@[simp] theorem closeInterval_reader_responses (s : State) : (closeInterval .reader s).responses = s.responses := rfl

@[simp] theorem recordSink_config (b : Issuer) (t : SinkTxn) (a : SinkAnswer) (s : State) : (recordSink b t a s).config = s.config := rfl
@[simp] theorem recordSink_w (b : Issuer) (t : SinkTxn) (a : SinkAnswer) (s : State) : (recordSink b t a s).w = s.w := rfl
@[simp] theorem recordSink_r (b : Issuer) (t : SinkTxn) (a : SinkAnswer) (s : State) : (recordSink b t a s).r = s.r := rfl
@[simp] theorem recordSink_fault (b : Issuer) (t : SinkTxn) (a : SinkAnswer) (s : State) : (recordSink b t a s).fault = s.fault := rfl
@[simp] theorem recordSink_sink (b : Issuer) (t : SinkTxn) (a : SinkAnswer) (s : State) : (recordSink b t a s).sink = { s.sink with log := s.sink.log ++ [{ issuer := b, txn := t, answer := a }] } := rfl
@[simp] theorem recordSink_source (b : Issuer) (t : SinkTxn) (a : SinkAnswer) (s : State) : (recordSink b t a s).source = s.source := rfl
@[simp] theorem recordSink_inputs (b : Issuer) (t : SinkTxn) (a : SinkAnswer) (s : State) : (recordSink b t a s).inputs = s.inputs := rfl
@[simp] theorem recordSink_responses (b : Issuer) (t : SinkTxn) (a : SinkAnswer) (s : State) : (recordSink b t a s).responses = s.responses := rfl

@[simp] theorem recordSource_config (b : Issuer) (a : SourceAnswer) (s : State) : (recordSource b a s).config = s.config := rfl
@[simp] theorem recordSource_w (b : Issuer) (a : SourceAnswer) (s : State) : (recordSource b a s).w = s.w := rfl
@[simp] theorem recordSource_r (b : Issuer) (a : SourceAnswer) (s : State) : (recordSource b a s).r = s.r := rfl
@[simp] theorem recordSource_fault (b : Issuer) (a : SourceAnswer) (s : State) : (recordSource b a s).fault = s.fault := rfl
@[simp] theorem recordSource_sink (b : Issuer) (a : SourceAnswer) (s : State) : (recordSource b a s).sink = s.sink := rfl
@[simp] theorem recordSource_source (b : Issuer) (a : SourceAnswer) (s : State) : (recordSource b a s).source = { s.source with log := s.source.log ++ [{ issuer := b, answer := a }] } := rfl
@[simp] theorem recordSource_inputs (b : Issuer) (a : SourceAnswer) (s : State) : (recordSource b a s).inputs = s.inputs := rfl
@[simp] theorem recordSource_responses (b : Issuer) (a : SourceAnswer) (s : State) : (recordSource b a s).responses = s.responses := rfl

@[simp] theorem setSinkAnswers_config (as : List SinkAnswer) (s : State) : (setSinkAnswers as s).config = s.config := rfl
@[simp] theorem setSinkAnswers_w (as : List SinkAnswer) (s : State) : (setSinkAnswers as s).w = s.w := rfl
@[simp] theorem setSinkAnswers_r (as : List SinkAnswer) (s : State) : (setSinkAnswers as s).r = s.r := rfl
@[simp] theorem setSinkAnswers_fault (as : List SinkAnswer) (s : State) : (setSinkAnswers as s).fault = s.fault := rfl
@[simp] theorem setSinkAnswers_sink (as : List SinkAnswer) (s : State) : (setSinkAnswers as s).sink = { s.sink with answers := as } := rfl
@[simp] theorem setSinkAnswers_source (as : List SinkAnswer) (s : State) : (setSinkAnswers as s).source = s.source := rfl
@[simp] theorem setSinkAnswers_inputs (as : List SinkAnswer) (s : State) : (setSinkAnswers as s).inputs = s.inputs := rfl
@[simp] theorem setSinkAnswers_responses (as : List SinkAnswer) (s : State) : (setSinkAnswers as s).responses = s.responses := rfl

@[simp] theorem setSourceAnswers_config (as : List SourceAnswer) (s : State) : (setSourceAnswers as s).config = s.config := rfl
@[simp] theorem setSourceAnswers_w (as : List SourceAnswer) (s : State) : (setSourceAnswers as s).w = s.w := rfl
@[simp] theorem setSourceAnswers_r (as : List SourceAnswer) (s : State) : (setSourceAnswers as s).r = s.r := rfl
@[simp] theorem setSourceAnswers_fault (as : List SourceAnswer) (s : State) : (setSourceAnswers as s).fault = s.fault := rfl
@[simp] theorem setSourceAnswers_sink (as : List SourceAnswer) (s : State) : (setSourceAnswers as s).sink = s.sink := rfl
@[simp] theorem setSourceAnswers_source (as : List SourceAnswer) (s : State) : (setSourceAnswers as s).source = { s.source with answers := as } := rfl
@[simp] theorem setSourceAnswers_inputs (as : List SourceAnswer) (s : State) : (setSourceAnswers as s).inputs = s.inputs := rfl
@[simp] theorem setSourceAnswers_responses (as : List SourceAnswer) (s : State) : (setSourceAnswers as s).responses = s.responses := rfl

@[simp] theorem writerError_config (s : State) : (writerError s).config = s.config := rfl
@[simp] theorem writerError_w (s : State) : (writerError s).w = { s.w with failed := true, busy := none } := rfl
@[simp] theorem writerError_r (s : State) : (writerError s).r = s.r := rfl
@[simp] theorem writerError_fault (s : State) : (writerError s).fault = s.fault := rfl
@[simp] theorem writerError_sink (s : State) : (writerError s).sink = s.sink := rfl
@[simp] theorem writerError_source (s : State) : (writerError s).source = s.source := rfl
@[simp] theorem writerError_inputs (s : State) : (writerError s).inputs = s.inputs := rfl
@[simp] theorem writerError_responses (s : State) : (writerError s).responses = s.responses ++ [{ unit := some .writer, word := responseWord .ioError 0#8 0#16 }] := rfl

@[simp] theorem beginFill_config (c : ReadCmd) (s : State) : (beginFill c s).config = s.config := rfl
@[simp] theorem beginFill_w (c : ReadCmd) (s : State) : (beginFill c s).w = s.w := rfl
@[simp] theorem beginFill_r (c : ReadCmd) (s : State) : (beginFill c s).r = { s.r with acc := s.r.acc >>> 8, offset := s.r.offset - 8, busy := some c } := rfl
@[simp] theorem beginFill_fault (c : ReadCmd) (s : State) : (beginFill c s).fault = s.fault := rfl
@[simp] theorem beginFill_sink (c : ReadCmd) (s : State) : (beginFill c s).sink = s.sink := rfl
@[simp] theorem beginFill_source (c : ReadCmd) (s : State) : (beginFill c s).source = s.source := rfl
@[simp] theorem beginFill_inputs (c : ReadCmd) (s : State) : (beginFill c s).inputs = s.inputs := rfl
@[simp] theorem beginFill_responses (c : ReadCmd) (s : State) : (beginFill c s).responses = s.responses := rfl

@[simp] theorem finishRead_config (c : ReadCmd) (s : State) : (finishRead c s).config = s.config := rfl
@[simp] theorem finishRead_w (c : ReadCmd) (s : State) : (finishRead c s).w = s.w := rfl
@[simp] theorem finishRead_r (c : ReadCmd) (s : State) : (finishRead c s).r = { s.r with offset := s.r.offset + c.consumed, busy := none } := rfl
@[simp] theorem finishRead_fault (c : ReadCmd) (s : State) : (finishRead c s).fault = s.fault := rfl
@[simp] theorem finishRead_sink (c : ReadCmd) (s : State) : (finishRead c s).sink = s.sink := rfl
@[simp] theorem finishRead_source (c : ReadCmd) (s : State) : (finishRead c s).source = s.source := rfl
@[simp] theorem finishRead_inputs (c : ReadCmd) (s : State) : (finishRead c s).inputs = s.inputs := rfl
@[simp] theorem finishRead_responses (c : ReadCmd) (s : State) : (finishRead c s).responses = s.responses ++
    [{ unit := some .reader, word := responseWord .ok 0#8 (c.data (extractField s.r.acc s.r.offset c.width)) }] := rfl

@[simp] theorem failFill_config (s : State) : (failFill s).config = s.config := rfl
@[simp] theorem failFill_w (s : State) : (failFill s).w = s.w := rfl
@[simp] theorem failFill_r (s : State) : (failFill s).r = { s.r with poisoned := s.r.poisoned || s.config.readerFailState == .poison, busy := none } := rfl
@[simp] theorem failFill_fault (s : State) : (failFill s).fault = s.fault := rfl
@[simp] theorem failFill_sink (s : State) : (failFill s).sink = s.sink := rfl
@[simp] theorem failFill_source (s : State) : (failFill s).source = s.source := rfl
@[simp] theorem failFill_inputs (s : State) : (failFill s).inputs = s.inputs := rfl
@[simp] theorem failFill_responses (s : State) : (failFill s).responses = s.responses := rfl

@[simp] theorem endWriterFaulted_config (s : State) : (endWriterFaulted s).config = s.config := rfl
@[simp] theorem endWriterFaulted_w (s : State) : (endWriterFaulted s).w = { s.w with busy := none } := rfl
@[simp] theorem endWriterFaulted_r (s : State) : (endWriterFaulted s).r = s.r := rfl
@[simp] theorem endWriterFaulted_fault (s : State) : (endWriterFaulted s).fault = s.fault := rfl
@[simp] theorem endWriterFaulted_sink (s : State) : (endWriterFaulted s).sink = s.sink := rfl
@[simp] theorem endWriterFaulted_source (s : State) : (endWriterFaulted s).source = s.source := rfl
@[simp] theorem endWriterFaulted_inputs (s : State) : (endWriterFaulted s).inputs = s.inputs := rfl
@[simp] theorem endWriterFaulted_responses (s : State) : (endWriterFaulted s).responses = s.responses ++
    [{ unit := some .writer, word := responseWord .fault s.fault 0#16 }] := rfl

@[simp] theorem endReaderFaulted_config (s : State) : (endReaderFaulted s).config = s.config := rfl
@[simp] theorem endReaderFaulted_w (s : State) : (endReaderFaulted s).w = s.w := rfl
@[simp] theorem endReaderFaulted_r (s : State) : (endReaderFaulted s).r = { s.r with busy := none } := rfl
@[simp] theorem endReaderFaulted_fault (s : State) : (endReaderFaulted s).fault = s.fault := rfl
@[simp] theorem endReaderFaulted_sink (s : State) : (endReaderFaulted s).sink = s.sink := rfl
@[simp] theorem endReaderFaulted_source (s : State) : (endReaderFaulted s).source = s.source := rfl
@[simp] theorem endReaderFaulted_inputs (s : State) : (endReaderFaulted s).inputs = s.inputs := rfl
@[simp] theorem endReaderFaulted_responses (s : State) : (endReaderFaulted s).responses = s.responses ++
    [{ unit := some .reader, word := responseWord .fault s.fault 0#16 }] := rfl

/-! ### Commands -/

/-- The commands of a busy unit are refused (U12). -/
theorem commandTo_busy {u : UnitId} {checks : List Check} {eff : State → State} {s : State}
    (h : unitIsBusy u s = true) : commandTo u checks eff s = .refused (.unitBusy u) := by
  simp [commandTo, h]

/-- The commands of an idle unit answer a next state. -/
theorem commandTo_idle {u : UnitId} {checks : List Check} {eff : State → State} {s : State}
    (h : unitIsBusy u s = false) :
    commandTo u checks eff s = .next (afterChecks (some u) checks eff (closeInterval u s)) := by
  simp [commandTo, h]

/-- What a command that answers a next state did: it found `FAULT` latched, raised the fault of its first failing check,
or had its effect. -/
theorem commandTo_cases {u : UnitId} {checks : List Check} {eff : State → State} {s t : State}
    (h : commandTo u checks eff s = .next t) :
    unitIsBusy u s = false ∧
      ((s.fault ≠ 0#8 ∧ t = respondFault (some u) (closeInterval u s)) ∨
       (s.fault = 0#8 ∧ ∃ c, firstFault checks = some c ∧ t = raiseFault (some u) c (closeInterval u s)) ∨
       (s.fault = 0#8 ∧ firstFault checks = none ∧ t = eff (closeInterval u s))) := by
  unfold commandTo at h
  split at h
  · cases h
  · rename_i hb
    refine ⟨by simpa using hb, ?_⟩
    have hf : (closeInterval u s).fault = s.fault := by cases u <;> rfl
    simp only [Host.Outcome.next.injEq] at h
    subst h
    unfold afterChecks
    rw [hf]
    split
    · exact .inl ⟨‹_›, rfl⟩
    · rename_i h0
      have h0 : s.fault = 0#8 := by simpa using h0
      cases hc : firstFault checks with
      | none => exact .inr (.inr ⟨h0, rfl, rfl⟩)
      | some c => exact .inr (.inl ⟨h0, c, rfl, rfl⟩)

/-- A command of an idle, faultless block whose checks all pass has its effect. -/
theorem commandTo_pass {u : UnitId} {checks : List Check} {eff : State → State} {s : State}
    (hb : unitIsBusy u s = false) (hf : s.fault = 0#8) (hc : firstFault checks = none) :
    commandTo u checks eff s = .next (eff (closeInterval u s)) := by
  have h0 : (closeInterval u s).fault = 0#8 := by cases u <;> simpa using hf
  simp [commandTo, hb, afterChecks, h0, hc]

/-- A command of an idle, faultless block raises the fault of its first failing check. -/
theorem commandTo_fault {u : UnitId} {checks : List Check} {eff : State → State} {s : State} {c : FaultCode}
    (hb : unitIsBusy u s = false) (hf : s.fault = 0#8) (hc : firstFault checks = some c) :
    commandTo u checks eff s = .next (raiseFault (some u) c (closeInterval u s)) := by
  have h0 : (closeInterval u s).fault = 0#8 := by cases u <;> simpa using hf
  simp [commandTo, hb, afterChecks, h0, hc]

/-- Every command is issued to its unit with its checks and its effect; what `commandTo` does holds of `exec`. -/
theorem exec_eq_commandTo (i : Instr) (s : State) : ∃ checks eff, exec i s = commandTo i.unit checks eff s := by
  cases i <;> exact ⟨_, _, rfl⟩

/-- No check applies exactly when none of the list does. -/
theorem firstFault_eq_none_iff (cs : List Check) : firstFault cs = none ↔ ∀ c ∈ cs, c.applies = false := by
  induction cs with
  | nil => simp [firstFault]
  | cons c cs ih => cases h : c.applies <;> simp [firstFault, h, ih]

/-! ### The writer's transactions -/

@[simp] theorem writerOk_frame (p : WriterWait) (s : State) :
    (writerOk p s).config = s.config ∧ (writerOk p s).r = s.r ∧ (writerOk p s).fault = s.fault ∧
      (writerOk p s).sink = s.sink ∧ (writerOk p s).source = s.source ∧ (writerOk p s).inputs = s.inputs := by
  cases p <;> simp [writerOk]

/-- An answer while no fault is latched: the command goes on (R83, R84, R86, R87). -/
theorem writerAnswered_clear {s : State} (h : s.fault = 0#8) (p : WriterWait) (a : SinkAnswer) :
    writerAnswered p a s =
      match a with
      | .ok => writerOk p (recordSink .unit (p.request s.w) a s)
      | .ioError _ => writerError (recordSink .unit (p.request s.w) a s) := by
  cases a <;> simp [writerAnswered, h]

/-- An answer while a fault is latched: the command responds FAULT and writes nothing (R30, R159). -/
theorem writerAnswered_faulted {s : State} (h : s.fault ≠ 0#8) (p : WriterWait) (a : SinkAnswer) :
    writerAnswered p a s = endWriterFaulted (recordSink .unit (p.request s.w) a s) := by
  simp [writerAnswered, h]

/-- An answer changes only the writer, the sink's log and the responses. -/
theorem writerAnswered_frame (p : WriterWait) (a : SinkAnswer) (s : State) :
    (writerAnswered p a s).config = s.config ∧ (writerAnswered p a s).r = s.r ∧
      (writerAnswered p a s).fault = s.fault ∧ (writerAnswered p a s).source = s.source ∧
      (writerAnswered p a s).inputs = s.inputs ∧
      (writerAnswered p a s).sink =
        { s.sink with log := s.sink.log ++ [{ issuer := .unit, txn := p.request s.w, answer := a }] } := by
  by_cases h : s.fault = 0#8
  · rw [writerAnswered_clear h]
    cases a <;> simp
  · rw [writerAnswered_faulted h]
    simp

/-- An answer does not attach or detach the writer. -/
@[simp] theorem writerAnswered_attached (p : WriterWait) (a : SinkAnswer) (s : State) :
    (writerAnswered p a s).w.attached = s.w.attached := by
  by_cases h : s.fault = 0#8
  · rw [writerAnswered_clear h]
    cases a <;> cases p <;> simp [writerOk]
  · rw [writerAnswered_faulted h]
    simp

/-- With no command in flight the answers stay with the sink. -/
theorem pumpWriter_idle {s : State} (h : s.w.busy = none) (as : List SinkAnswer) :
    pumpWriter as s = setSinkAnswers as s := by
  cases as <;> simp [pumpWriter, h]

/-- One answer of a pump. -/
theorem pumpWriter_cons {s : State} {p : WriterWait} (h : s.w.busy = some p) (a : SinkAnswer)
    (as : List SinkAnswer) : pumpWriter (a :: as) s = pumpWriter as (writerAnswered p a s) := by
  simp [pumpWriter, h]

/-- A pump while a fault is latched takes one answer: the command in flight ends with FAULT and issues nothing more. -/
theorem pumpWriter_faulted {s : State} {p : WriterWait} (h : s.fault ≠ 0#8) (hb : s.w.busy = some p) (a : SinkAnswer)
    (as : List SinkAnswer) :
    pumpWriter (a :: as) s = setSinkAnswers as (endWriterFaulted (recordSink .unit (p.request s.w) a s)) := by
  rw [pumpWriter_cons hb, writerAnswered_faulted h, pumpWriter_idle (by simp)]

/-- The pump keeps whatever one answer keeps (for a property of states that the answers at the port do not enter). -/
theorem pumpWriter_induct {P : State → Prop} (hset : ∀ as s, P s → P (setSinkAnswers as s))
    (hans : ∀ p a s, s.w.busy = some p → P s → P (writerAnswered p a s)) :
    ∀ (as : List SinkAnswer) (s : State), P s → P (pumpWriter as s)
  | [], s, h => hset [] s h
  | a :: as, s, h => by
    cases hb : s.w.busy with
    | none => rw [pumpWriter_idle hb]; exact hset _ s h
    | some p => rw [pumpWriter_cons hb]; exact pumpWriter_induct hset hans as _ (hans p a s hb h)

/-- The pump changes only the writer, the sink and the responses. -/
theorem pumpWriter_frame (as : List SinkAnswer) (s : State) :
    (pumpWriter as s).config = s.config ∧ (pumpWriter as s).r = s.r ∧ (pumpWriter as s).fault = s.fault ∧
      (pumpWriter as s).source = s.source ∧ (pumpWriter as s).inputs = s.inputs ∧
      (pumpWriter as s).sink.exposed = s.sink.exposed ∧ (pumpWriter as s).w.attached = s.w.attached := by
  refine pumpWriter_induct (P := fun t => t.config = s.config ∧ t.r = s.r ∧ t.fault = s.fault ∧
    t.source = s.source ∧ t.inputs = s.inputs ∧ t.sink.exposed = s.sink.exposed ∧ t.w.attached = s.w.attached)
    (fun as t h => by simpa using h) (fun p a t _ h => ?_) as s (by simp)
  obtain ⟨h1, h2, h3, h4, h5, h6⟩ := writerAnswered_frame p a t
  rw [h1, h2, h3, h4, h5, h6, writerAnswered_attached]
  exact h

/-- A command still in flight after a pump has used every answer. -/
theorem pumpWriter_waits (as : List SinkAnswer) (s : State) :
    (pumpWriter as s).w.busy ≠ none → (pumpWriter as s).sink.answers = [] := by
  induction as generalizing s with
  | nil => simp [pumpWriter]
  | cons a as ih =>
    cases hb : s.w.busy with
    | none => simp [pumpWriter_idle hb, hb]
    | some p => rw [pumpWriter_cons hb]; exact ih _

/-- The answers at the port do not enter the pump. -/
theorem pumpWriter_setSinkAnswers (xs as : List SinkAnswer) (s : State) :
    pumpWriter as (setSinkAnswers xs s) = pumpWriter as s := by
  induction as generalizing s with
  | nil => rfl
  | cons a as ih =>
    cases hb : s.w.busy with
    | none => rw [pumpWriter_idle (by simpa using hb), pumpWriter_idle hb]; rfl
    | some p =>
      have h : writerAnswered p a (setSinkAnswers xs s) = setSinkAnswers xs (writerAnswered p a s) := by
        by_cases hf : s.fault = 0#8
        · rw [writerAnswered_clear hf, writerAnswered_clear (by simpa using hf)]
          cases a <;> cases p <;> rfl
        · rw [writerAnswered_faulted hf, writerAnswered_faulted (by simpa using hf)]
          rfl
      rw [pumpWriter_cons (p := p) (by simpa using hb), pumpWriter_cons hb, h, ih]

/-- Pumping in two portions, where the first leaves the command in flight, is pumping them together. -/
theorem pumpWriter_append (as bs : List SinkAnswer) (s : State) (h : (pumpWriter as s).w.busy ≠ none) :
    pumpWriter bs (pumpWriter as s) = pumpWriter (as ++ bs) s := by
  induction as generalizing s with
  | nil => exact pumpWriter_setSinkAnswers [] bs s
  | cons a as ih =>
    cases hb : s.w.busy with
    | none => exact absurd (by simp [pumpWriter_idle hb, hb]) h
    | some p =>
      rw [pumpWriter_cons hb] at h ⊢
      rw [List.cons_append, pumpWriter_cons hb, ih _ h]

/-- A write that leaves fewer than 16 bits buffered (R83). -/
theorem writeField_below {s : State} {w : Nat} {v : Half} (h : s.w.filled + w < 16) :
    writeField w v s = respondOk .writer 0#16
      (s.setW { s.w with acc := appendField s.w.acc s.w.filled w v, filled := s.w.filled + w }) := by
  simp [writeField]
  omega

/-- A write that reaches 16 bits, its emission accepted (R83). -/
theorem writeField_emits {s : State} {w : Nat} {v : Half} {rest : List SinkAnswer} (hf : s.fault = 0#8)
    (h : 16 ≤ s.w.filled + w) (ha : s.sink.answers = .ok :: rest) :
    writeField w v s =
      { s with
        w := { s.w with
          acc := appendField s.w.acc s.w.filled w v >>> 16, filled := s.w.filled + w - 16, busy := none }
        sink := { s.sink with
          answers := rest
          log := s.sink.log ++ [{
            issuer := .unit, txn := .write16 (emitChunkOf (appendField s.w.acc s.w.filled w v)), answer := .ok }] }
        responses := s.responses ++ [{ unit := some .writer, word := responseWord .ok 0#8 0#16 }] } := by
  simp [writeField, h, runWriter, ha]
  rw [pumpWriter_cons (p := .emission) (by simp), writerAnswered_clear (by simpa using hf),
    pumpWriter_idle (by simp [writerOk])]
  rfl

/-- A write that reaches 16 bits, its emission failed (R84). -/
theorem writeField_fails {s : State} {w : Nat} {v : Half} {kept : Retained} {rest : List SinkAnswer}
    (hf : s.fault = 0#8) (h : 16 ≤ s.w.filled + w) (ha : s.sink.answers = .ioError kept :: rest) :
    writeField w v s =
      { s with
        w := { s.w with
          acc := appendField s.w.acc s.w.filled w v, filled := s.w.filled + w, failed := true, busy := none }
        sink := { s.sink with
          answers := rest
          log := s.sink.log ++ [{
            issuer := .unit, txn := .write16 (emitChunkOf (appendField s.w.acc s.w.filled w v))
            answer := .ioError kept }] }
        responses := s.responses ++ [{ unit := some .writer, word := responseWord .ioError 0#8 0#16 }] } := by
  simp [writeField, h, runWriter, ha]
  rw [pumpWriter_cons (p := .emission) (by simp), writerAnswered_clear (by simpa using hf), pumpWriter_idle (by simp)]
  rfl

/-- A write changes only the writer, the sink and the responses. -/
theorem writeField_frame (w : Nat) (v : Half) (s : State) :
    (writeField w v s).config = s.config ∧ (writeField w v s).r = s.r ∧ (writeField w v s).fault = s.fault ∧
      (writeField w v s).source = s.source ∧ (writeField w v s).inputs = s.inputs ∧
      (writeField w v s).sink.exposed = s.sink.exposed ∧ (writeField w v s).w.attached = s.w.attached := by
  unfold writeField
  dsimp only
  split
  · exact pumpWriter_frame s.sink.answers
      (s.setW { s.w with
        acc := appendField s.w.acc s.w.filled w v, filled := s.w.filled + w, busy := some .emission })
  · simp

/-- A drain changes only the writer, the sink and the responses. -/
theorem drainAndFlush_frame (s : State) :
    (drainAndFlush s).config = s.config ∧ (drainAndFlush s).r = s.r ∧ (drainAndFlush s).fault = s.fault ∧
      (drainAndFlush s).source = s.source ∧ (drainAndFlush s).inputs = s.inputs ∧
      (drainAndFlush s).sink.exposed = s.sink.exposed ∧ (drainAndFlush s).w.attached = s.w.attached :=
  pumpWriter_frame s.sink.answers (s.setW { s.w with busy := some (nextDrain s.w.filled) })

/-- The first `k` bytes of a drain, all accepted (R86). -/
theorem pumpWriter_drains (k : Nat) (s : State) (rest : List SinkAnswer) (hf : s.fault = 0#8)
    (hb : s.w.busy = some (nextDrain s.w.filled)) (hk : k ≤ (s.w.filled + 7) / 8) :
    pumpWriter (List.replicate k .ok ++ rest) s = pumpWriter rest { s with
      w := { s.w with
        acc := s.w.acc >>> (8 * k), filled := s.w.filled - 8 * k, busy := some (nextDrain (s.w.filled - 8 * k)) }
      sink := { s.sink with
        log := s.sink.log ++ (List.range k).map
          (fun j => { issuer := .unit, txn := .write8 ((s.w.acc >>> (8 * j)).setWidth 8), answer := .ok }) } } := by
  induction k generalizing s with
  | zero => simp [← hb]
  | succ k ih =>
    have hp : nextDrain s.w.filled = .drain := by
      simp [nextDrain]
      omega
    rw [List.replicate_succ, List.cons_append, pumpWriter_cons (p := .drain) (by rw [hb, hp]), writerAnswered_clear hf]
    rw [ih]
    · simp only [writerOk, recordSink_w, recordSink_sink, State.setW_w, State.setW_sink,
        WriterWait.request]
      congr 1
      simp only [State.setW, recordSink, State.setSink]
      rw [show s.w.filled - min 8 s.w.filled - 8 * k = s.w.filled - 8 * (k + 1) by omega]
      simp only [← BitVec.shiftRight_add, List.range_succ_eq_map, List.map_cons, List.map_map, drainByte_eq]
      rw [show 8 + 8 * k = 8 * (k + 1) by omega]
      simp
      intro j hj
      rw [show 8 + 8 * j = 8 * (j + 1) by omega]
    · simp [writerOk, hf]
    · simp [writerOk]
    · simp [writerOk]
      omega

/-! ### The reader's fills -/

/-- The loop head changes only the reader and the responses. -/
theorem peekLoop_frame (c : ReadCmd) (s : State) :
    (peekLoop c s).config = s.config ∧ (peekLoop c s).w = s.w ∧ (peekLoop c s).fault = s.fault ∧
      (peekLoop c s).sink = s.sink ∧ (peekLoop c s).source = s.source ∧ (peekLoop c s).inputs = s.inputs ∧
      (peekLoop c s).r.attached = s.r.attached := by
  unfold peekLoop; split <;> simp

/-- An answer while no fault is latched: the command goes on (R101, R103, R112). -/
theorem readerAnswered_clear {s : State} (h : s.fault = 0#8) (c : ReadCmd) (a : SourceAnswer) :
    readerAnswered c a s =
      match a with
      | .byte b => peekLoop c ((recordSource .unit a s).setR { s.r with acc := insertByte s.r.acc b, busy := none })
      | .endOfStream => respondEndOfStream .reader (failFill (recordSource .unit a s))
      | .ioError => respondIoError .reader (failFill (recordSource .unit a s)) := by
  cases a <;> simp [readerAnswered, h]

/-- An answer while a fault is latched: the command responds FAULT and writes nothing (R30, R159). -/
theorem readerAnswered_faulted {s : State} (h : s.fault ≠ 0#8) (c : ReadCmd) (a : SourceAnswer) :
    readerAnswered c a s = endReaderFaulted (recordSource .unit a s) := by
  simp [readerAnswered, h]

/-- An answer changes only the reader, the source's log and the responses. -/
theorem readerAnswered_frame (c : ReadCmd) (a : SourceAnswer) (s : State) :
    (readerAnswered c a s).config = s.config ∧ (readerAnswered c a s).w = s.w ∧
      (readerAnswered c a s).fault = s.fault ∧ (readerAnswered c a s).sink = s.sink ∧
      (readerAnswered c a s).inputs = s.inputs ∧ (readerAnswered c a s).r.attached = s.r.attached ∧
      (readerAnswered c a s).source =
        { s.source with log := s.source.log ++ [{ issuer := .unit, answer := a }] } := by
  by_cases h : s.fault = 0#8
  · rw [readerAnswered_clear h]
    cases a with
    | byte b =>
      obtain ⟨h1, h2, h3, h4, h5, h6, h7⟩ := peekLoop_frame c
        ((recordSource .unit (.byte b) s).setR { s.r with acc := insertByte s.r.acc b, busy := none })
      dsimp only
      rw [h1, h2, h3, h4, h5, h6, h7]
      simp
    | endOfStream => simp
    | ioError => simp
  · rw [readerAnswered_faulted h]
    simp

/-- With no command in flight the answers stay with the source. -/
theorem pumpReader_idle {s : State} (h : s.r.busy = none) (as : List SourceAnswer) :
    pumpReader as s = setSourceAnswers as s := by
  cases as <;> simp [pumpReader, h]

/-- One answer of a pump. -/
theorem pumpReader_cons {s : State} {c : ReadCmd} (h : s.r.busy = some c) (a : SourceAnswer)
    (as : List SourceAnswer) : pumpReader (a :: as) s = pumpReader as (readerAnswered c a s) := by
  simp [pumpReader, h]

/-- A pump while a fault is latched takes one answer: the command in flight ends with FAULT and issues nothing more. -/
theorem pumpReader_faulted {s : State} {c : ReadCmd} (h : s.fault ≠ 0#8) (hb : s.r.busy = some c) (a : SourceAnswer)
    (as : List SourceAnswer) :
    pumpReader (a :: as) s = setSourceAnswers as (endReaderFaulted (recordSource .unit a s)) := by
  rw [pumpReader_cons hb, readerAnswered_faulted h, pumpReader_idle (by simp)]

/-- The pump keeps whatever one answer keeps (for a property of states that the answers at the port do not enter). -/
theorem pumpReader_induct {P : State → Prop} (hset : ∀ as s, P s → P (setSourceAnswers as s))
    (hans : ∀ c a s, s.r.busy = some c → P s → P (readerAnswered c a s)) :
    ∀ (as : List SourceAnswer) (s : State), P s → P (pumpReader as s)
  | [], s, h => hset [] s h
  | a :: as, s, h => by
    cases hb : s.r.busy with
    | none => rw [pumpReader_idle hb]; exact hset _ s h
    | some c => rw [pumpReader_cons hb]; exact pumpReader_induct hset hans as _ (hans c a s hb h)

/-- The pump changes only the reader, the source and the responses. -/
theorem pumpReader_frame (as : List SourceAnswer) (s : State) :
    (pumpReader as s).config = s.config ∧ (pumpReader as s).w = s.w ∧ (pumpReader as s).fault = s.fault ∧
      (pumpReader as s).sink = s.sink ∧ (pumpReader as s).inputs = s.inputs ∧
      (pumpReader as s).source.exposed = s.source.exposed ∧ (pumpReader as s).r.attached = s.r.attached := by
  refine pumpReader_induct (P := fun t => t.config = s.config ∧ t.w = s.w ∧ t.fault = s.fault ∧
    t.sink = s.sink ∧ t.inputs = s.inputs ∧ t.source.exposed = s.source.exposed ∧ t.r.attached = s.r.attached)
    (fun as t h => by simpa using h) (fun c a t _ h => ?_) as s (by simp)
  obtain ⟨h1, h2, h3, h4, h5, h6, h7⟩ := readerAnswered_frame c a t
  rw [h1, h2, h3, h4, h5, h6, h7]
  exact h

/-- A command still in flight after a pump has used every answer. -/
theorem pumpReader_waits (as : List SourceAnswer) (s : State) :
    (pumpReader as s).r.busy ≠ none → (pumpReader as s).source.answers = [] := by
  induction as generalizing s with
  | nil => simp [pumpReader]
  | cons a as ih =>
    cases hb : s.r.busy with
    | none => simp [pumpReader_idle hb, hb]
    | some c => rw [pumpReader_cons hb]; exact ih _

/-- The answers at the port do not enter the pump. -/
theorem pumpReader_setSourceAnswers (xs as : List SourceAnswer) (s : State) :
    pumpReader as (setSourceAnswers xs s) = pumpReader as s := by
  induction as generalizing s with
  | nil => rfl
  | cons a as ih =>
    cases hb : s.r.busy with
    | none => rw [pumpReader_idle (by simpa using hb), pumpReader_idle hb]; rfl
    | some c =>
      have h : readerAnswered c a (setSourceAnswers xs s) = setSourceAnswers xs (readerAnswered c a s) := by
        by_cases hf : s.fault = 0#8
        · rw [readerAnswered_clear hf, readerAnswered_clear (by simpa using hf)]
          cases a with
          | byte b => simp only [peekLoop]; split <;> split <;> first | rfl | contradiction
          | endOfStream => rfl
          | ioError => rfl
        · rw [readerAnswered_faulted hf, readerAnswered_faulted (by simpa using hf)]
          rfl
      rw [pumpReader_cons (c := c) (by simpa using hb), pumpReader_cons hb, h, ih]

/-- Pumping in two portions, where the first leaves the command in flight, is pumping them together. -/
theorem pumpReader_append (as bs : List SourceAnswer) (s : State) (h : (pumpReader as s).r.busy ≠ none) :
    pumpReader bs (pumpReader as s) = pumpReader (as ++ bs) s := by
  induction as generalizing s with
  | nil => exact pumpReader_setSourceAnswers [] bs s
  | cons a as ih =>
    cases hb : s.r.busy with
    | none => exact absurd (by simp [pumpReader_idle hb, hb]) h
    | some c =>
      rw [pumpReader_cons hb] at h ⊢
      rw [List.cons_append, pumpReader_cons hb, ih _ h]

/-- A read changes only the reader, the source and the responses. -/
theorem readField_frame (c : ReadCmd) (s : State) :
    (readField c s).config = s.config ∧ (readField c s).w = s.w ∧ (readField c s).fault = s.fault ∧
      (readField c s).sink = s.sink ∧ (readField c s).inputs = s.inputs ∧
      (readField c s).source.exposed = s.source.exposed ∧ (readField c s).r.attached = s.r.attached := by
  obtain ⟨h1, h2, h3, h4, h5, h6, h7⟩ := peekLoop_frame c s
  obtain ⟨k1, k2, k3, k4, k5, k6, k7⟩ := pumpReader_frame (peekLoop c s).source.answers (peekLoop c s)
  exact ⟨k1.trans h1, k2.trans h2, k3.trans h3, k4.trans h4, k5.trans h6, k6.trans (by rw [h5]), k7.trans h7⟩

end Sys2Proof.Machine
end

