-- ==== Sys2Proof/Laws/PerInstr.lean ====
section
/-! SUPPORT. Statements about every command as syntax, one lemma per constructor. -/

namespace Sys2Proof.Laws.TableWord

/-- The word of a well-formed command belongs to the command's row of spec/opcode_table.json (its `match` and `mask`). -/
def Statement (i : Instr) : Prop := i.WellFormed → i.opcode.tableRow.matches (encode i)

theorem wNew : Statement .wNew := fun _ => by unfold TableRow.matches; decide

theorem wBit (b : Bool) : Statement (.wBit b) := fun _ => by
  unfold TableRow.matches
  cases b <;> decide

theorem wBits (w : Nat) (v : Half) : Statement (.wBits w v) := fun _ => by
  unfold TableRow.matches
  apply BitVec.eq_of_getLsbD_eq
  intro k hk
  rw [encode, BitVec.getLsbD_and, packWord_getLsbD]
  interval_cases k <;> simp [Instr.opcode, Opcode.tableRow, Opcode.bits]

theorem wFlush : Statement .wFlush := fun _ => by unfold TableRow.matches; decide

theorem wInner : Statement .wInner := fun _ => by unfold TableRow.matches; decide

theorem wUnwrap : Statement .wUnwrap := fun _ => by unfold TableRow.matches; decide

theorem rNew : Statement .rNew := fun _ => by unfold TableRow.matches; decide

theorem rBit : Statement .rBit := fun _ => by unfold TableRow.matches; decide

theorem rBits (w : Nat) : Statement (.rBits w) := fun _ => by
  unfold TableRow.matches
  apply BitVec.eq_of_getLsbD_eq
  intro k hk
  rw [encode, BitVec.getLsbD_and, packWord_getLsbD]
  interval_cases k <;> simp [Instr.opcode, Opcode.tableRow, Opcode.bits, Instr.valueOperand]

theorem rPeek (w : Nat) : Statement (.rPeek w) := fun _ => by
  unfold TableRow.matches
  apply BitVec.eq_of_getLsbD_eq
  intro k hk
  rw [encode, BitVec.getLsbD_and, packWord_getLsbD]
  interval_cases k <;> simp [Instr.opcode, Opcode.tableRow, Opcode.bits, Instr.valueOperand]

theorem rSkip (w : Nat) : Statement (.rSkip w) := fun _ => by
  unfold TableRow.matches
  apply BitVec.eq_of_getLsbD_eq
  intro k hk
  rw [encode, BitVec.getLsbD_and, packWord_getLsbD]
  interval_cases k <;> simp [Instr.opcode, Opcode.tableRow, Opcode.bits, Instr.valueOperand]

theorem rReset : Statement .rReset := fun _ => by unfold TableRow.matches; decide

theorem rInner : Statement .rInner := fun _ => by unfold TableRow.matches; decide

theorem rUnwrap : Statement .rUnwrap := fun _ => by unfold TableRow.matches; decide

end Sys2Proof.Laws.TableWord
end

