-- ==== Sys2Proof/Laws/Safety.lean ====
section
/-! SUPPORT. What a safe run is, said of its states. -/

namespace Sys2Proof.Machine

open Sys2Proof

/-- A run of one step more. -/
theorem runFor_succ {n : Nat} {s t : State} (h : step s = .next t) : runFor (n + 1) s = runFor n t := by
  have run_succ : ∀ (M : Host.Core) (x y : M.State), M.step x = .next y → M.run (n + 1) x = M.run n y := by
    intro M x y hxy
    rw [Host.Core.run, hxy]
  exact run_succ Sys2Proof.core s t h

/-- A safe run ends in a state, and every state it passes, the first and the last among them, has no fault latched. -/
theorem SafeFor.states {n : Nat} {s : State} (h : SafeFor n s) :
    ∀ k, k ≤ n → ∃ t, runFor k s = .next t ∧ t.fault = 0#8 := by
  induction n generalizing s with
  | zero =>
    intro k hk
    obtain rfl : k = 0 := by omega
    exact ⟨s, rfl, h⟩
  | succ n ih =>
    obtain ⟨h0, u, hu, hs⟩ := h
    intro k hk
    cases k with
    | zero => exact ⟨s, rfl, h0⟩
    | succ k =>
      rw [runFor_succ hu]
      exact ih hs k (by omega)

end Sys2Proof.Machine
end

