-- ==== Sys2Proof/Machine/Assembler.lean ====
section
/-! DEFINITION. The assembly syntax (30_encoding.md R70): one command per line, the mnemonic, then operands separated by
commas; numbers decimal, `0x` hexadecimal or `0b` binary; `;` starts a comment. There are no pseudo-instructions (R71).
What R70 leaves open is in assumption log 18. -/

namespace Sys2Proof.Machine

open Sys2Proof

/-- The spelling of a mnemonic (R62). -/
def mnemonicOf : Opcode → String
  | .wNew => "W.NEW"
  | .wBit => "W.BIT"
  | .wBits => "W.BITS"
  | .wFlush => "W.FLUSH"
  | .wInner => "W.INNER"
  | .wUnwrap => "W.UNWRAP"
  | .rNew => "R.NEW"
  | .rBit => "R.BIT"
  | .rBits => "R.BITS"
  | .rPeek => "R.PEEK"
  | .rSkip => "R.SKIP"
  | .rReset => "R.RESET"
  | .rInner => "R.INNER"
  | .rUnwrap => "R.UNWRAP"

/-- A space or a tab. -/
def isBlank (c : Char) : Bool := c == ' ' || c == '\t'

/-- The line without blanks at either end. -/
def trim (cs : List Char) : List Char := ((cs.dropWhile isBlank).reverse.dropWhile isBlank).reverse

/-- The line without its comment (R70). -/
def dropComment (line : List Char) : List Char := line.takeWhile (fun c => c != ';')

/-- The value of a digit in any base up to 16. -/
def digitValue (c : Char) : Option Nat :=
  if '0' ≤ c ∧ c ≤ '9' then some (c.toNat - '0'.toNat)
  else if 'a' ≤ c ∧ c ≤ 'f' then some (c.toNat - 'a'.toNat + 10)
  else if 'A' ≤ c ∧ c ≤ 'F' then some (c.toNat - 'A'.toNat + 10)
  else none

/-- Read digits, most significant first, after the value read so far. -/
def digitsFrom (base : Nat) : Nat → List Char → Option Nat
  | n, [] => some n
  | n, c :: cs =>
    match digitValue c with
    | some d => if d < base then digitsFrom base (base * n + d) cs else none
    | none => none

/-- One or more digits. -/
def parseDigits (base : Nat) : List Char → Option Nat
  | [] => none
  | c :: cs => digitsFrom base 0 (c :: cs)

/-- A number: decimal, `0x` hexadecimal or `0b` binary (R70). -/
def parseNumber (cs : List Char) : Option Nat :=
  match cs with
  | '0' :: 'x' :: ds => parseDigits 16 ds
  | '0' :: 'b' :: ds => parseDigits 2 ds
  | ds => parseDigits 10 ds

/-- The text between commas (R70); an empty text has no operand. -/
def splitOperands : List Char → List (List Char)
  | [] => []
  | c :: cs =>
    if c == ',' then [] :: (match splitOperands cs with | [] => [[]] | x :: xs => x :: xs)
    else match splitOperands cs with | [] => [[c]] | x :: xs => (c :: x) :: xs

/-- The operands of a line as numbers; `none` where one is not a number. -/
def parseOperands (cs : List Char) : Option (List Nat) := (splitOperands cs).mapM (fun x => parseNumber (trim x))

/-- The command of a mnemonic with the operands R70 gives it, where they fit their fields. -/
def assembleOperands (op : Opcode) (operands : List Nat) : Option Instr :=
  match op, operands with
  | .wBits, [w, v] => if WidthEncodable w ∧ v < 2 ^ 16 then some (.wBits w (BitVec.ofNat 16 v)) else none
  | .wBit, [b] => if b < 2 then some (.wBit (b == 1)) else none
  | .rBits, [w] => if WidthEncodable w then some (.rBits w) else none
  | .rPeek, [w] => if WidthEncodable w then some (.rPeek w) else none
  | .rSkip, [w] => if WidthEncodable w then some (.rSkip w) else none
  | .wNew, [] => some .wNew
  | .wFlush, [] => some .wFlush
  | .wInner, [] => some .wInner
  | .wUnwrap, [] => some .wUnwrap
  | .rNew, [] => some .rNew
  | .rBit, [] => some .rBit
  | .rReset, [] => some .rReset
  | .rInner, [] => some .rInner
  | .rUnwrap, [] => some .rUnwrap
  | _, _ => none

/-- What a line is. -/
inductive AsmLine where
  /-- Nothing but blanks and a comment. -/
  | empty
  /-- A command. -/
  | instr (i : Instr)
  /-- Not in the syntax of R70. -/
  | malformed
deriving DecidableEq, Repr

/-- Read one line of assembly (R70). -/
def assembleLine (line : List Char) : AsmLine :=
  let text := trim (dropComment line)
  if text = [] then .empty
  else
    let name := text.takeWhile (fun c => !isBlank c)
    let rest := text.dropWhile (fun c => !isBlank c)
    match Opcode.all.find? (fun op => (mnemonicOf op).toList == name) with
    | none => .malformed
    | some op =>
      match (parseOperands (trim rest)).bind (assembleOperands op) with
      | some i => .instr i
      | none => .malformed

/-- The words of a program text, line by line; the assembler writes the unused fields as 0 (R70). A malformed line makes
the whole text malformed. -/
def assemble : List (List Char) → Option (List Word)
  | [] => some []
  | line :: rest =>
    match assembleLine line, assemble rest with
    | .empty, some ws => some ws
    | .instr i, some ws => some (encode i :: ws)
    | .malformed, _ => none
    | _, none => none

end Sys2Proof.Machine
end

