-- ==== Sys2Proof/Tests/Slice0.lean ====
section
/-! SUPPORT. Tests. Expected values are those of spec/95_test_vectors.md (the vector is named) or are worked out by hand
from the rule named. Then one witness per statement with hypotheses: a concrete state and operands that meet them. -/

namespace Sys2Proof.Tests

open Sys2Proof Sys2Proof.Machine

/-! ### Helpers -/

/-- The next state, if there is one. -/
def nextOf : Result → Option State
  | .next t => some t
  | .fault _ => none
  | .refused _ => none

/-- The refusal, if there is one. -/
def refusalOf : Result → Option Refusal
  | .next _ => none
  | .fault _ => none
  | .refused x => some x

/-- An attached writer with bits buffered, before a sink with these answers; the rest as after power-on. -/
def withWriter (acc : Word) (filled : Nat) (answers : List SinkAnswer) : State :=
  { State.reset with
    w := { attached := true, acc := acc, filled := filled, failed := false, busy := none }
    sink := { answers := answers, log := [], exposed := false } }

/-- An attached reader before a source with these answers; the rest as after power-on. -/
def withReader (acc : Word) (offset : Nat) (answers : List SourceAnswer) : State :=
  { State.reset with
    r := { attached := true, acc := acc, offset := offset, poisoned := false, busy := none }
    source := { answers := answers, log := [], exposed := false } }

/-- In POISON mode. -/
def inPoisonMode (s : State) : State := { s with config := { readerFailState := .poison } }

/-- A writer that has failed. -/
def failedWriter (acc : Word) (filled : Nat) : State :=
  { withWriter acc filled [] with
    w := { attached := true, acc := acc, filled := filled, failed := true, busy := none } }

/-- A poisoned reader in POISON mode. -/
def poisonedReader (acc : Word) (offset : Nat) : State :=
  inPoisonMode { withReader acc offset [] with
    r := { attached := true, acc := acc, offset := offset, poisoned := true, busy := none } }

/-- With this next input. -/
def withInput (x : Input) (s : State) : State := { s with inputs := [x] }

/-- A reader that waits for a byte. -/
def waitingReader (x : Input) : State :=
  withInput x { withReader 0#32 24 [] with
    r := { attached := true, acc := 0#32, offset := 24, poisoned := false, busy := some (.bits 16) } }

/-- A writer that waits for the answer to an emission. -/
def waitingWriter (x : Input) : State :=
  withInput x { withWriter 0xFFFF#32 16 [] with
    w := { attached := true, acc := 0xFFFF#32, filled := 16, failed := false, busy := some .emission } }

/-- The writer's side of an outcome: `(W.acc, W.filled, W.failed)`, the transactions answered, the response words. -/
def writerView (x : Result) : Option (Word × Nat × Bool × List SinkTxn × List Word) :=
  (nextOf x).map (fun t =>
    (t.w.acc, t.w.filled, t.w.failed, t.sink.log.map (fun y => y.txn), t.responses.map (fun y => y.word)))

/-- The reader's side of an outcome: `(R.acc, R.offset)`, the source's position, the response words. -/
def readerView (x : Result) : Option (Word × Nat × Nat × List Word) :=
  (nextOf x).map (fun t => (t.r.acc, t.r.offset, t.source.position, t.responses.map (fun y => y.word)))

/-- `FAULT` and the attachments `W.attached`, `R.attached` of an outcome. -/
def blockView (x : Result) : Option (Byte × Bool × Bool) :=
  (nextOf x).map (fun t => (t.fault, t.w.attached, t.r.attached))

/-- A word of the given bits, `OPC`, `RSV`, `W` and `V` one after another, most significant first (R60). -/
def wordOf (opc : BitVec 8) (rsv : BitVec 3) (w : BitVec 5) (v : BitVec 16) : Word := opc ++ rsv ++ w ++ v

/-! ### WellFormed: each check refuses an ill-formed term -/

theorem test_wBits_width_32_ill_formed : (Instr.wBits 32 0#16).wellFormed = false := by decide

theorem test_rBits_width_32_ill_formed : (Instr.rBits 32).wellFormed = false := by decide

theorem test_rPeek_width_32_ill_formed : (Instr.rPeek 32).wellFormed = false := by decide

theorem test_rSkip_width_32_ill_formed : (Instr.rSkip 32).wellFormed = false := by decide

theorem test_widest_widths_well_formed :
    (Instr.wBits 31 0xFFFF#16).wellFormed = true ∧ (Instr.rSkip 31).wellFormed = true := by decide

/-! ### Decode: words written out bit by bit from R60 and R62 -/

theorem test_decode_wNew : decode (wordOf 0b00010000#8 0b000#3 0b00000#5 0#16) = .instr .wNew := by decide

theorem test_decode_wBit : decode (wordOf 0b00010001#8 0b000#3 0b00000#5 1#16) = .instr (.wBit true) := by decide

theorem test_decode_wBits :
    decode (wordOf 0b00010010#8 0b000#3 0b01011#5 0b0000010101011010#16) = .instr (.wBits 11 0x55A#16) := by decide

theorem test_decode_wFlush : decode (wordOf 0b00010011#8 0b000#3 0b00000#5 0#16) = .instr .wFlush := by decide

theorem test_decode_wInner : decode (wordOf 0b00010100#8 0b000#3 0b00000#5 0#16) = .instr .wInner := by decide

theorem test_decode_wUnwrap : decode (wordOf 0b00010101#8 0b000#3 0b00000#5 0#16) = .instr .wUnwrap := by decide

theorem test_decode_rNew : decode (wordOf 0b00100000#8 0b000#3 0b00000#5 0#16) = .instr .rNew := by decide

theorem test_decode_rBit : decode (wordOf 0b00100001#8 0b000#3 0b00000#5 0#16) = .instr .rBit := by decide

theorem test_decode_rBits : decode (wordOf 0b00100010#8 0b000#3 0b10000#5 0#16) = .instr (.rBits 16) := by decide

theorem test_decode_rPeek : decode (wordOf 0b00100011#8 0b000#3 0b00011#5 0#16) = .instr (.rPeek 3) := by decide

theorem test_decode_rSkip : decode (wordOf 0b00100100#8 0b000#3 0b10111#5 0#16) = .instr (.rSkip 23) := by decide

theorem test_decode_rReset : decode (wordOf 0b00100101#8 0b000#3 0b00000#5 0#16) = .instr .rReset := by decide

theorem test_decode_rInner : decode (wordOf 0b00100110#8 0b000#3 0b00000#5 0#16) = .instr .rInner := by decide

theorem test_decode_rUnwrap : decode (wordOf 0b00100111#8 0b000#3 0b00000#5 0#16) = .instr .rUnwrap := by decide

/-- V-W-12, V-W-11, V-R-17, V-L-4, V-W-21; R64: 0x16 and 0x28 are unassigned; R63: a width where it must be 0. -/
theorem test_decode_illegal :
    decode 0x12200000#32 = .illegal .reservedRsv ∧ decode 0x11000002#32 = .illegal .reservedV ∧
    decode 0x22008000#32 = .illegal .reservedV ∧ decode 0x14000001#32 = .illegal .reservedV ∧
    decode 0x00000000#32 = .illegal .unassignedOpcode ∧ decode 0x16000000#32 = .illegal .unassignedOpcode ∧
    decode 0x28000000#32 = .illegal .unassignedOpcode ∧ decode 0x13010000#32 = .illegal .reservedW := by decide

theorem test_decodeTableWord :
    decodeTableWord 32 0x120B055A = some (.wBits 11 0x55A#16) ∧ decodeTableWord 32 0x12200000 = none := by decide

/-- R70: the examples of the rule, with a comment, and a malformed line. -/
theorem test_assembler :
    assemble ["W.BITS 3, 0b010".toList, "R.PEEK 3 ; look".toList, "; nothing".toList, "W.FLUSH".toList] =
      some [0x12030002#32, 0x23030000#32, 0x13000000#32] ∧
    assembleLine "W.BITS 3".toList = .malformed ∧ assembleLine "R.SKIP 0x17".toList = .instr (.rSkip 23) := by
  decide +kernel

/-! ### Reset -/

/-- R34, R170, R6. -/
theorem test_reset : State.reset.r.offset = 32 ∧ State.reset.w.attached = false ∧ State.reset.fault = 0#8 ∧
    State.reset.config.readerFailState = .stepOrder := by decide

/-! ### Writer commands -/

/-- R131. -/
theorem test_wNew_attaches : blockView (exec .wNew State.reset) = some (0#8, true, false) := by decide

/-- V-W-14. -/
theorem test_wNew_twice_faults : blockView (exec .wNew (withWriter 0#32 0 [])) = some (0x03#8, true, false) := by decide

/-- V-W-3. -/
theorem test_wBit_emits_at_16 : writerView (exec (.wBit true) (withWriter 0x7FFF#32 15 [.ok])) =
    some (0#32, 0, false, [.write16 0xFFFF#16], [0#32]) := by decide

/-- V-W-15. -/
theorem test_wBit_sink_error : writerView (exec (.wBit true) (withWriter 0x7FFF#32 15 [.ioError .firstByte])) =
    some (0xFFFF#32, 16, true, [.write16 0xFFFF#16], [0x01000000#32]) := by decide

/-- V-W-4. -/
theorem test_wBits_emits_and_carries : writerView (exec (.wBits 3 7#16) (withWriter 0x55A5#32 15 [.ok])) =
    some (3#32, 2, false, [.write16 0xD5A5#16], [0#32]) := by decide

/-- L1-1 step 4 with bits above the width set, as V-W-5. -/
theorem test_wBits_masks_the_value : writerView (exec (.wBits 11 0xFD5A#16) (withWriter 5#32 4 [])) =
    some (0x55A5#32, 15, false, [], [0#32]) := by decide

/-- L1-1 step 5. -/
theorem test_wFlush_drains : writerView (exec .wFlush (withWriter 0x55A5#32 15 [.ok, .ok, .ok])) =
    some (0#32, 0, false, [.write8 0xA5#8, .write8 0x55#8, .flush], [0#32]) := by decide

/-- V-W-16. -/
theorem test_wFlush_sink_error : writerView (exec .wFlush (withWriter 0x1FF#32 9 [.ok, .ioError .nothing, .ok])) =
    some (1#32, 1, true, [.write8 0xFF#8, .write8 0x01#8], [0x01000000#32]) := by decide

/-- V-L-3, on a writer that has failed (R132). -/
theorem test_wInner_on_failed_writer : writerView (exec .wInner (failedWriter 0x55#32 7)) =
    some (0x55#32, 7, true, [], [0#32]) := by decide

/-- R132 and R172: NOT_ATTACHED. -/
theorem test_wInner_detached : blockView (exec .wInner State.reset) = some (0x02#8, false, false) := by decide

/-- V-W-18: nothing is flushed. -/
theorem test_wUnwrap_loses_bits : writerView (exec .wUnwrap (withWriter 0x55#32 7 [.ok])) =
    some (0x55#32, 7, false, [], [0#32]) := by decide

/-- V-L-1. -/
theorem test_wUnwrap_detached : blockView (exec .wUnwrap State.reset) = some (0x02#8, false, false) := by decide

/-! ### Reader commands -/

/-- R134 after an R.UNWRAP that left bits: the new reader holds none. -/
theorem test_rNew_starts_empty :
    readerView (exec .rNew { State.reset with
      r := { attached := false, acc := 0xA5000000#32, offset := 25, poisoned := true, busy := none } }) =
    some (0#32, 32, 0, [0#32]) := by decide

/-- V-L-2. -/
theorem test_rNew_twice_faults : blockView (exec .rNew (withReader 0#32 32 [])) = some (0x03#8, false, true) := by decide

/-- L1-2 step 2. -/
theorem test_rBit_fetches : readerView (exec .rBit (withReader 0#32 32 [.byte 0xA5#8, .byte 0xD5#8])) =
    some (0xA5000000#32, 25, 1, [1#32]) := by decide

/-- V-R-7. -/
theorem test_rBit_end_of_stream : readerView (exec .rBit (withReader 0#32 32 [.endOfStream])) =
    some (0#32, 24, 0, [0x02000000#32]) := by decide

/-- V-R-2. -/
theorem test_rBits_two_fills : readerView (exec (.rBits 16) (withReader 0#32 32 [.byte 0x34#8, .byte 0x12#8])) =
    some (0x12340000#32, 32, 2, [0x1234#32]) := by decide

/-- L1-2 step 9. -/
theorem test_rBits_end_of_stream : readerView (exec (.rBits 8) (withReader 0xD5A50000#32 27 [.endOfStream])) =
    some (0x00D5A500#32, 19, 0, [0x02000000#32]) := by decide

/-- V-R-13: the lowest reachable offset. -/
theorem test_rPeek_to_offset_9 :
    readerView (exec (.rPeek 16) (withReader 0x01000000#32 25 [.byte 2#8, .byte 3#8])) =
      some (0x03020100#32, 9, 2, [0x8100#32]) := by decide

/-- V-R-4. -/
theorem test_rPeek_width_range : readerView (exec (.rPeek 17) (withReader 0#32 32 [.byte 0x34#8])) =
    some (0#32, 32, 0, [0x03040000#32]) := by decide

/-- V-R-13: 23 buffered bits skipped. -/
theorem test_rSkip_all_buffered : readerView (exec (.rSkip 23) (withReader 0x03020100#32 9 [.byte 4#8])) =
    some (0x03020100#32, 32, 0, [0#32]) := by decide

/-- V-R-5. -/
theorem test_rSkip_underflow : readerView (exec (.rSkip 1) (withReader 0#32 32 [.byte 0x34#8])) =
    some (0#32, 32, 0, [0x03060000#32]) := by decide

/-- V-R-9: R.RESET clears the poison and keeps the accumulator. -/
theorem test_rReset_clears_poison : (nextOf (exec .rReset (poisonedReader 0x00AB0000#32 16))).map (fun t => t.r) =
    some { attached := true, acc := 0x00AB0000#32, offset := 32, poisoned := false, busy := none } := by decide

/-- V-R-10: the poison fault. -/
theorem test_poisoned_read_faults : readerView (exec (.rBits 8) (poisonedReader 0x00AB0000#32 16)) =
    some (0x00AB0000#32, 16, 0, [0x03080000#32]) := by decide

/-- R135. -/
theorem test_rInner_exposes : (nextOf (exec .rInner (withReader 0#32 32 []))).map (fun t => t.source.exposed) =
    some true := by decide

/-- R136: the unit lets the source go and returns no bits. -/
theorem test_rUnwrap_detaches : blockView (exec .rUnwrap (withReader 0xD5A50000#32 27 [])) =
    some (0#8, false, false) := by decide

/-- V-R-14: after a failed fill the zero bits come as data under STEP_ORDER. -/
theorem test_read_after_failed_fill : readerView (exec (.rBits 8) (withReader 0x00D5A500#32 19 [])) =
    some (0x00D5A500#32, 27, 0, [0x1A#32]) := by decide

/-! ### Steps -/

/-- V-L-5, V-W-21: with `FAULT` latched even an illegal word answers the latched code. -/
theorem test_latched_fault_answers :
    (nextOf (step (withInput (.command 0#32) (State.reset.setFault 4#8)))).map
      (fun t => (t.fault, t.responses)) = some (4#8, [{ unit := none, word := 0x03040000#32 }]) := by decide

/-- R30, R159: with `FAULT` latched by the reader's side, an accepted emission ends the waiting W.BITS with FAULT, the
accumulator as it was. -/
theorem test_fault_ends_waiting_writer :
    writerView (step ((waitingWriter (.sinkAnswer .ok)).setFault 6#8)) =
      some (0xFFFF#32, 16, false, [.write16 0xFFFF#16], [0x03060000#32]) := by decide

/-- R30, R159: likewise the byte a waiting R.BITS gets; it is not inserted, and no second fill is made. -/
theorem test_fault_ends_waiting_reader :
    readerView (step ((waitingReader (.sourceAnswer (.byte 7#8))).setFault 4#8)) =
      some (0#32, 24, 1, [0x03040000#32]) := by decide

/-- R155: a run in which a fault was latched is not safe, also when a power-on reset clears it. -/
theorem test_faulted_run_is_not_safe : ¬ SafeFor 2 { State.reset with inputs := [.command 0#32, .powerOn] } := by
  rintro ⟨_, t, ht, h, _⟩
  cases ht
  exact absurd h (by decide)

/-- R162: with no answer ready the command waits and has not responded. -/
theorem test_read_waits :
    (nextOf (exec (.rBits 8) (withReader 0#32 32 []))).map (fun t => (t.r.busy, t.responses)) =
      some (some (.bits 8), []) := by decide

/-- R137: the host's byte stands in the sink stream and the buffered bits stay (R56); outside the interval, refused. -/
theorem test_host_uses_exposed_sink :
    (nextOf (step (withInput (.hostSink (.write8 7#8)) ((withWriter 0x55#32 7 []).setSink
      { answers := [.ok], log := [], exposed := true })))).map (fun t => (t.sink.stream, t.w.filled)) =
        some ([7#8], 7) ∧
    refusalOf (step (withInput (.hostSink (.write8 7#8)) (withWriter 0x55#32 7 [.ok]))) =
      some (.streamNotExposed .writer) := by decide

/-- R130, R172: a stream is connected to a detached unit's port only. -/
theorem test_connect_source :
    (nextOf (step (withInput (.connectSource [.byte 7#8]) State.reset))).map (fun t => t.source.answers) =
      some [.byte 7#8] ∧
    refusalOf (step (withInput (.connectSource [.byte 7#8]) (withReader 0#32 32 []))) =
      some (.streamOwned .reader) := by decide

/-- The word placed by `withFetchWord` is run by the very next step. -/
theorem test_withFetchWord :
    blockView (step (State.reset.withFetchWord 32 0x10000000)) = some (0#8, true, false) := by decide

/-! ### Witnesses: for each statement with hypotheses, a state and operands that meet all of them -/

theorem witness_ResetAndCreationValues :
    (State.reset.fault = 0#8 ∧ State.reset.w.busy = none ∧ State.reset.w.attached = false) ∧
    (State.reset.fault = 0#8 ∧ State.reset.r.busy = none ∧ State.reset.r.attached = false) := by decide

theorem witness_PowerOnResetsTheBlockFromAnyState :
    (withInput .powerOn (failedWriter 0x3FABC#32 18)).inputs = [.powerOn] := by decide

theorem witness_StepRunsTheDecodedCommand :
    (withInput (.command 0x12030002#32) State.reset).inputs = [.command 0x12030002#32] ∧
    decode 0x12030002#32 = .instr (.wBits 3 2#16) := by decide

theorem witness_DecodeOfEncodeIsTheCommand :
    (Instr.wBits 31 0xFFFF#16).WellFormed ∧ (Instr.rSkip 0).WellFormed := by decide

theorem witness_EncodeOfDecodeIsTheWord : decode 0x121FFFFF#32 = .instr (.wBits 31 0xFFFF#16) := by decide

theorem witness_LegalWordsAreTheTableRows :
    decode 0x241F0000#32 = .instr (.rSkip 31) ∧ Opcode.rSkip.tableRow.matches 0x241F0000#32 := by
  unfold TableRow.matches
  decide

/-- An illegal word of a unit, and one that selects none. -/
theorem witness_IllegalWordRaisesIllegalCommand :
    (∃ s : State, s.inputs = [.command 0x12200000#32] ∧ decode 0x12200000#32 = .illegal .reservedRsv ∧
      s.fault = 0#8 ∧ ∀ u, selectUnit 0x12200000#32 = some u → unitIsBusy u s = false) ∧
    (∃ s : State, s.inputs = [.command 0#32] ∧ decode 0#32 = .illegal .unassignedOpcode ∧
      s.fault = 0#8 ∧ ∀ u, selectUnit 0#32 = some u → unitIsBusy u s = false) :=
  ⟨⟨withInput (.command 0x12200000#32) (withWriter 1#32 1 []), by decide, by decide, by decide,
      fun u _ => by cases u <;> decide⟩,
    ⟨withInput (.command 0#32) State.reset, by decide, by decide, by decide, fun u _ => by cases u <;> decide⟩⟩

theorem witness_EachCommandGivesOneResponse :
    (∃ t, exec (.rBits 8) (withReader 0#32 32 []) = .next t ∧ unitIsBusy .reader t = true) ∧
    (∃ t, exec (.rBits 8) (withReader 0#32 32 [.byte 5#8]) = .next t ∧ unitIsBusy .reader t = false) :=
  ⟨⟨_, rfl, by decide⟩, ⟨_, rfl, by decide⟩⟩

theorem witness_DataComesOnlyFromSuccessfulReads :
    ∃ t x, exec .rBit (withReader 0xA5000000#32 24 []) = .next t ∧ t.responses = [x] ∧
      x.word.extractLsb' 0 16 ≠ 0#16 :=
  ⟨_, { unit := some .reader, word := 1#32 }, rfl, by decide, by decide⟩

/-- One state for each code a check can raise; the last is out of reach of a run (R82). -/
theorem witness_FirstFailingCheckRaisesItsFault :
    commandFault .wFlush State.reset = some 0x02#8 ∧ commandFault .rNew (withReader 0#32 32 []) = some 0x03#8 ∧
    commandFault (.wBits 16 0#16) (withWriter 0#32 0 []) = some 0x04#8 ∧
    commandFault (.rPeek 17) (withReader 0#32 32 []) = some 0x04#8 ∧
    commandFault (.rSkip 1) (withReader 0#32 32 []) = some 0x06#8 ∧
    commandFault (.wBit true) (failedWriter 0#32 16) = some 0x07#8 ∧
    commandFault .rBit (poisonedReader 0#32 24) = some 0x08#8 ∧
    commandFault (.wBits 15 0#16) (withWriter 0#32 18 []) = some 0x05#8 ∧
    unitIsBusy .writer State.reset = false ∧ State.reset.fault = 0#8 ∧
    unitIsBusy .reader (poisonedReader 0#32 24) = false ∧ (poisonedReader 0#32 24).fault = 0#8 ∧
    unitIsBusy .writer (withWriter 0#32 18 []) = false ∧ (withWriter 0#32 18 []).fault = 0#8 := by decide

/-- At the edge of every check: the widest write and the widest skip. -/
theorem witness_PassingChecksRaiseNoFault :
    (withWriter 0x7FFF#32 15 [.ok]).fault = 0#8 ∧
    commandFault (.wBits 15 0x7FFF#16) (withWriter 0x7FFF#32 15 [.ok]) = none ∧
    (∃ t, exec (.wBits 15 0x7FFF#16) (withWriter 0x7FFF#32 15 [.ok]) = .next t) ∧
    commandFault (.rSkip 23) (withReader 0#32 9 []) = none :=
  ⟨by decide, by decide, ⟨_, rfl⟩, by decide⟩

/-- The three clauses: a word, and an answer to a waiting writer and to a waiting reader. -/
theorem witness_LatchedFaultAnswersEveryWord :
    (∃ s : State, s.inputs = [.command 0x20000000#32] ∧ s.fault ≠ 0#8 ∧
      ∀ u, selectUnit 0x20000000#32 = some u → unitIsBusy u s = false) ∧
    (∃ s : State, s.inputs = [.sinkAnswer .ok] ∧ s.fault ≠ 0#8 ∧ s.w.busy = some .emission ∧ s.sink.answers = []) ∧
    (∃ s : State, s.inputs = [.sourceAnswer .endOfStream] ∧ s.fault ≠ 0#8 ∧ s.r.busy = some (.bits 16) ∧
      s.source.answers = []) :=
  ⟨⟨withInput (.command 0x20000000#32) (State.reset.setFault 4#8), by decide, by decide,
      fun u _ => by cases u <;> decide⟩,
    ⟨(waitingWriter (.sinkAnswer .ok)).setFault 4#8, by decide, by decide, by decide, by decide⟩,
    ⟨(waitingReader (.sourceAnswer .endOfStream)).setFault 4#8, by decide, by decide, by decide, by decide⟩⟩

/-- A word to one unit; and an answer to the other, which waits. -/
theorem witness_OnlyPowerOnClearsFault :
    (∃ s t : State, step s = .next t ∧ s.fault ≠ 0#8 ∧ s.inputs.head? ≠ some .powerOn ∧
      (∀ as, s.inputs.head? ≠ some (.connectSink as)) ∧ ∀ as, s.inputs.head? ≠ some (.connectSource as)) ∧
    (∃ s t : State, step s = .next t ∧ s.fault ≠ 0#8 ∧ s.inputs.head? ≠ some .powerOn ∧ t.w.busy ≠ s.w.busy) :=
  ⟨⟨withInput (.command 0x20000000#32) (State.reset.setFault 4#8), _, rfl, by decide, by decide,
      fun _ h => (by cases h), fun _ h => by cases h⟩,
    ⟨(waitingWriter (.sinkAnswer .ok)).setFault 4#8, _, rfl, by decide, by decide, by decide⟩⟩

theorem witness_FailedWriterIsUnusable :
    (failedWriter 0xFFFF#32 16).fault = 0#8 ∧ (failedWriter 0xFFFF#32 16).w.busy = none ∧
    (failedWriter 0xFFFF#32 16).w.attached = true ∧ (failedWriter 0xFFFF#32 16).w.failed = true := by decide

theorem witness_PoisonedReaderFaultsOnlyInPoisonMode :
    ((poisonedReader 0#32 24).fault = 0#8 ∧ (poisonedReader 0#32 24).r.busy = none ∧
      (poisonedReader 0#32 24).r.attached = true ∧ (poisonedReader 0#32 24).r.poisoned = true ∧
      (poisonedReader 0#32 24).config.readerFailState = .poison) ∧
    ((withReader 0#32 24 []).config.readerFailState = .stepOrder ∧ (withReader 0#32 24 []).fault = 0#8 ∧
      ∃ t, exec .rBit (withReader 0#32 24 []) = .next t) :=
  ⟨by decide, by decide, by decide, ⟨_, rfl⟩⟩

/-- Up to 15 bits: a field of 15 on an empty writer, a field of none on a full one. -/
theorem witness_WBitsBelowThresholdAppends :
    (WriterReady (withWriter 0#32 0 []) ∧ 15 ≤ 15 ∧ (withWriter 0#32 0 []).w.filled + 15 < 16) ∧
    (WriterReady (withWriter 0x7FFF#32 15 []) ∧ (withWriter 0x7FFF#32 15 []).w.filled + 0 < 16) := by decide

/-- From 16 bits, the least, to 30, the most. -/
theorem witness_WBitsAtThresholdEmits :
    (WriterReady (withWriter 1#32 1 [.ok]) ∧ (withWriter 1#32 1 [.ok]).w.filled ≤ 15 ∧
      16 ≤ (withWriter 1#32 1 [.ok]).w.filled + 15 ∧ (withWriter 1#32 1 [.ok]).sink.answers = [.ok]) ∧
    (WriterReady (withWriter 1#32 15 [.ok]) ∧ (withWriter 1#32 15 [.ok]).w.filled ≤ 15 ∧
      16 ≤ (withWriter 1#32 15 [.ok]).w.filled + 15) := by decide

theorem witness_WBitsSinkErrorFailsTheWriter :
    WriterReady (withWriter 1#32 15 [.ioError .firstByte]) ∧ (withWriter 1#32 15 [.ioError .firstByte]).w.filled ≤ 15 ∧
    16 ≤ (withWriter 1#32 15 [.ioError .firstByte]).w.filled + 1 ∧
    (withWriter 1#32 15 [.ioError .firstByte]).sink.answers = [.ioError .firstByte] := by decide

theorem witness_WBitAppendsOneBit :
    (WriterReady (withWriter 0#32 14 []) ∧ (withWriter 0#32 14 []).w.filled < 15) ∧
    (WriterReady (withWriter 0#32 15 [.ok]) ∧ (withWriter 0#32 15 [.ok]).w.filled = 15 ∧
      (withWriter 0#32 15 [.ok]).sink.answers = [.ok]) := by decide

theorem witness_WBitIsWBitsOfWidthOne : (withWriter 0#32 15 []).w.filled ≤ 31 := by decide

theorem witness_WBitsIgnoresBitsAboveTheWidth :
    ∀ k, k < 4 → (0xFFFF#16).getLsbD k = (0x000F#16).getLsbD k := by decide

theorem witness_WBitsOfWidthZeroWritesNothing :
    (WriterReady (withWriter 0x7FFF#32 15 []) ∧ (withWriter 0x7FFF#32 15 []).w.filled ≤ 15) ∧
    (State.reset.fault = 0#8 ∧ State.reset.w.busy = none ∧ State.reset.w.attached = false) ∧
    ((failedWriter 0#32 0).fault = 0#8 ∧ (failedWriter 0#32 0).w.busy = none ∧
      (failedWriter 0#32 0).w.attached = true ∧ (failedWriter 0#32 0).w.failed = true) ∧
    ((State.reset.setFault 4#8).fault ≠ 0#8 ∧ (State.reset.setFault 4#8).w.busy = none) := by decide

/-- With 15 bits buffered, the most, and with none. -/
theorem witness_WFlushDrainsEveryByteThenFlushes :
    (WriterReady (withWriter 0x55A5#32 15 [.ok, .ok, .ok]) ∧ (withWriter 0x55A5#32 15 [.ok, .ok, .ok]).w.filled ≤ 15 ∧
      (withWriter 0x55A5#32 15 [.ok, .ok, .ok]).w.acc.toNat <
        2 ^ (withWriter 0x55A5#32 15 [.ok, .ok, .ok]).w.filled ∧
      (withWriter 0x55A5#32 15 [.ok, .ok, .ok]).sink.answers = List.replicate ((15 + 7) / 8 + 1) .ok ++ []) ∧
    (WriterReady (withWriter 0#32 0 [.ok]) ∧ (withWriter 0#32 0 [.ok]).w.acc.toNat < 2 ^ 0 ∧
      (withWriter 0#32 0 [.ok]).sink.answers = List.replicate ((0 + 7) / 8 + 1) .ok ++ []) := by decide

/-- The flush request fails (V-W-20), and the first byte fails. -/
theorem witness_WFlushSinkErrorFailsTheWriter :
    (WriterReady (withWriter 0xAB#32 8 [.ok, .ioError .nothing]) ∧ 1 ≤ (8 + 7) / 8 ∧
      (withWriter 0xAB#32 8 [.ok, .ioError .nothing]).w.filled ≤ 15 ∧
      (withWriter 0xAB#32 8 [.ok, .ioError .nothing]).sink.answers =
        List.replicate 1 .ok ++ .ioError .nothing :: []) ∧
    (WriterReady (withWriter 0xAB#32 8 [.ioError .everything]) ∧
      (withWriter 0xAB#32 8 [.ioError .everything]).sink.answers =
        List.replicate 0 .ok ++ .ioError .everything :: []) := by decide

/-- A field that crosses the threshold, then a flush, with a command of the reader between. -/
theorem witness_EmissionLaw :
    (∀ i ∈ [Instr.wBits 15 0x1234#16, .rNew, .wBits 15 0x7ABC#16, .wFlush], i.WellFormed ∧ i ≠ .wNew ∧ i ≠ .wUnwrap) ∧
    WriterReady (withWriter 0#32 0 [.ok, .ok, .ok, .ok]) ∧
    ∃ t, runProgram [.wBits 15 0x1234#16, .rNew, .wBits 15 0x7ABC#16, .wFlush]
        (withWriter 0#32 0 [.ok, .ok, .ok, .ok]) = .next t ∧
      t.fault = 0#8 ∧ t.w.failed = false ∧ t.w.busy = none :=
  ⟨by simp, by decide, _, rfl, by decide, by decide, by decide⟩

/-- The invariant of a state whose units do not wait. -/
theorem inv_of_idle {s : State} (h1 : s.w.acc.toNat < 2 ^ s.w.filled) (h2 : s.w.filled ≤ 15) (h3 : s.w.busy = none)
    (h4 : 9 ≤ s.r.offset ∧ s.r.offset ≤ 32) (h5 : s.r.busy = none) (h6 : s.r.poisoned = false)
    (h7 : s.fault.toNat ≤ 8) (h8 : s.sink.exposed = false) (h9 : s.source.exposed = false) : s.Inv where
  accBelowFilled := h1
  filledBound := by omega
  filledIdle := fun _ _ _ => h2
  writerWaits := fun p h => by rw [h3] at h; cases h
  offsetRange := h4
  readerWaits := fun c h => by rw [h5] at h; cases h
  poisonOnlyInPoisonMode := fun _ => h6
  faultCode := h7
  sinkExposed := fun h => by rw [h8] at h; cases h
  sourceExposed := fun h => by rw [h9] at h; cases h

theorem inv_withWriter_full : (withWriter 0x55A5#32 15 [.ok, .ok, .ok]).Inv :=
  inv_of_idle (by decide) (by decide) (by decide) (by decide) (by decide) (by decide) (by decide) (by decide) (by decide)

/-- A flush of 15 bits, the most, after 15 bits given. -/
theorem witness_WriterCommandLosesNoBit :
    (withWriter 0x55A5#32 15 [.ok, .ok, .ok]).Inv ∧ WriterReady (withWriter 0x55A5#32 15 [.ok, .ok, .ok]) ∧
    (withWriter 0x55A5#32 15 [.ok, .ok, .ok]).w.filled % 8 = (List.replicate 15 true).length % 8 ∧
    ∃ t, exec .wFlush (withWriter 0x55A5#32 15 [.ok, .ok, .ok]) = .next t ∧
      t.fault = 0#8 ∧ t.w.failed = false ∧ t.w.busy = none :=
  ⟨inv_withWriter_full, by decide, by decide, _, rfl, by decide, by decide, by decide⟩

theorem witness_OnlyDataCommandsUseTheStreams :
    ∃ t, exec .wFlush (withWriter 0x55A5#32 15 [.ok, .ok, .ok]) = .next t ∧ t.sink.log.length = 3 :=
  ⟨_, rfl, by decide⟩

/-- The bound of 3 is met. -/
theorem witness_TransactionsPerCommandAreBounded :
    (withWriter 0x55A5#32 15 [.ok, .ok, .ok]).Inv ∧
    ∃ t, exec .wFlush (withWriter 0x55A5#32 15 [.ok, .ok, .ok]) = .next t ∧ t.sink.log.length = 3 :=
  ⟨inv_withWriter_full, _, rfl, by decide⟩

theorem witness_NewAttachesAFreshUnit :
    (State.reset.fault = 0#8 ∧ State.reset.w.busy = none ∧ State.reset.w.attached = false) ∧
    (State.reset.r.busy = none ∧ State.reset.r.attached = false) := by decide

theorem witness_InnerExposesTheStream :
    ((failedWriter 0#32 16).fault = 0#8 ∧ (failedWriter 0#32 16).w.busy = none ∧
      (failedWriter 0#32 16).w.attached = true) ∧
    ((poisonedReader 0#32 24).fault = 0#8 ∧ (poisonedReader 0#32 24).r.busy = none ∧
      (poisonedReader 0#32 24).r.attached = true) := by decide

theorem witness_UnwrapDetachesWithoutFlushing :
    ((withWriter 0x55#32 7 []).fault = 0#8 ∧ (withWriter 0x55#32 7 []).w.busy = none ∧
      (withWriter 0x55#32 7 []).w.attached = true) ∧
    ((withReader 0#32 9 []).fault = 0#8 ∧ (withReader 0#32 9 []).r.busy = none ∧
      (withReader 0#32 9 []).r.attached = true) := by decide

theorem witness_NextCommandEndsTheInterval :
    (∃ t, exec .wInner (withWriter 0#32 0 []) = .next t ∧ t.sink.exposed = true) ∧
    (∃ t, exec .rInner (withReader 0#32 32 []) = .next t ∧ t.source.exposed = true) :=
  ⟨⟨_, rfl, by decide⟩, ⟨_, rfl, by decide⟩⟩

theorem witness_ExtractTakesTheNextBits : 16 ≤ 16 ∧ 15 < 16 ∧ 0 ≤ 16 ∧ 0 = 0 := by decide

/-- No byte, one byte and two bytes to fetch; the last from the fullest buffer that needs two. -/
theorem witness_ReadsFetchExactlyTheBytesTheyNeed :
    (ReaderReady (withReader 0#32 9 []) ∧ (ReadCmd.bits 16).width ≤ 16 ∧ (withReader 0#32 9 []).r.offset ≤ 32 ∧
      ([] : List Byte).length = fillsNeeded 9 16) ∧
    (ReaderReady (withReader 0#32 32 [.byte 7#8]) ∧ [7#8].length = fillsNeeded 32 ReadCmd.bit.width ∧
      (withReader 0#32 32 [.byte 7#8]).source.answers = [7#8].map SourceAnswer.byte ++ []) ∧
    (ReaderReady (withReader 0#32 25 [.byte 2#8, .byte 3#8]) ∧
      [2#8, 3#8].length = fillsNeeded 25 (ReadCmd.peek 16).width ∧
      (withReader 0#32 25 [.byte 2#8, .byte 3#8]).source.answers = [2#8, 3#8].map SourceAnswer.byte ++ []) := by decide

theorem witness_ReadsReturnTheNextBits :
    ReaderReady (withReader 0#32 25 [.byte 2#8, .byte 3#8]) ∧ (ReadCmd.bits 16).width ≤ 16 ∧
    (withReader 0#32 25 [.byte 2#8, .byte 3#8]).r.offset ≤ 32 ∧
    [2#8, 3#8].length = fillsNeeded 25 (ReadCmd.bits 16).width ∧
    (withReader 0#32 25 [.byte 2#8, .byte 3#8]).source.answers = [2#8, 3#8].map SourceAnswer.byte ++ [] := by decide

theorem witness_RBitIsRBitsOfWidthOne :
    ∃ t, exec (.rBits 1) (withReader 0xA5000000#32 24 []) = .next t ∧ t.r.busy = none :=
  ⟨_, rfl, by decide⟩

/-- The second fill of a read fails, with an I/O error; and the first of one, at the end of the stream. -/
theorem witness_FailedFillLeavesTheShift :
    (ReaderReady (withReader 0#32 32 [.byte 0xAB#8, .ioError]) ∧ (ReadCmd.bits 16).width ≤ 16 ∧
      [0xAB#8].length < fillsNeeded 32 (ReadCmd.bits 16).width ∧
      (withReader 0#32 32 [.byte 0xAB#8, .ioError]).source.answers =
        [0xAB#8].map SourceAnswer.byte ++ .ioError :: []) ∧
    (ReaderReady (withReader 0#32 32 [.endOfStream]) ∧
      ([] : List Byte).length < fillsNeeded 32 ReadCmd.bit.width ∧
      (withReader 0#32 32 [.endOfStream]).source.answers =
        ([] : List Byte).map SourceAnswer.byte ++ .endOfStream :: []) := by decide

theorem witness_FailedFillBuffersEightZeroBits :
    ReaderReady (withReader 0#32 32 [.byte 0xAB#8, .endOfStream]) ∧ (ReadCmd.bits 16).width ≤ 16 ∧
    (withReader 0#32 32 [.byte 0xAB#8, .endOfStream]).r.offset ≤ 32 ∧
    [0xAB#8].length < fillsNeeded 32 (ReadCmd.bits 16).width ∧
    (withReader 0#32 32 [.byte 0xAB#8, .endOfStream]).source.answers =
      [0xAB#8].map SourceAnswer.byte ++ .endOfStream :: [] ∧
    ∃ t, exec (ReadCmd.bits 16).instr (withReader 0#32 32 [.byte 0xAB#8, .endOfStream]) = .next t :=
  ⟨by decide, by decide, by decide, by decide, by decide, _, rfl⟩

theorem witness_SkipAdvancesWithoutFetching :
    (ReaderReady (withReader 0#32 9 []) ∧ 23 ≤ 32 - (withReader 0#32 9 []).r.offset) ∧
    (ReaderReady (withReader 0#32 32 []) ∧ 0 ≤ 32 - (withReader 0#32 32 []).r.offset) := by decide

theorem witness_SkipPastTheBufferFaults :
    (ReaderReady (withReader 0#32 9 []) ∧ 24 > 32 - (withReader 0#32 9 []).r.offset) ∧
    23 ≤ 32 - (withReader 0#32 9 []).r.offset := by decide

/-- A peek of 16 bits, then a skip or another peek of 16, the widest, or of none. -/
theorem witness_SkipAfterPeekCannotFault :
    ∃ t d, (withReader 0#32 32 [.byte 0x34#8, .byte 0x12#8]).fault = 0#8 ∧
      exec (.rPeek 16) (withReader 0#32 32 [.byte 0x34#8, .byte 0x12#8]) = .next t ∧
      t.responses = (withReader 0#32 32 [.byte 0x34#8, .byte 0x12#8]).responses ++ [okResponse .reader d] ∧
      16 ≤ 16 ∧ 0 ≤ 16 :=
  ⟨_, 0x1234#16, by decide, rfl, by decide, by decide, by decide⟩

theorem witness_ReaderResetDropsTheBuffer :
    (poisonedReader 0#32 24).fault = 0#8 ∧ (poisonedReader 0#32 24).r.busy = none ∧
    (poisonedReader 0#32 24).r.attached = true := by decide

theorem witness_PeekIsIdempotent :
    ∃ t d, (withReader 0#32 32 [.byte 0x34#8, .byte 0x12#8]).fault = 0#8 ∧
      exec (.rPeek 16) (withReader 0#32 32 [.byte 0x34#8, .byte 0x12#8]) = .next t ∧
      t.responses = (withReader 0#32 32 [.byte 0x34#8, .byte 0x12#8]).responses ++ [okResponse .reader d] ∧ 4 ≤ 16 :=
  ⟨_, 0x1234#16, by decide, rfl, by decide, by decide⟩

/-- A read, a peek and a skip over three bytes, with a command of the writer between. -/
theorem witness_FetchLaw :
    (∀ i ∈ [Instr.rBits 1, .wNew, .rPeek 16, .rSkip 23], i.WellFormed ∧ i ≠ .rNew ∧ i ≠ .rReset ∧ i ≠ .rUnwrap) ∧
    ReaderReady (withReader 0#32 32 [.byte 1#8, .byte 2#8, .byte 3#8]) ∧
    ∃ t, runProgram [.rBits 1, .wNew, .rPeek 16, .rSkip 23] (withReader 0#32 32 [.byte 1#8, .byte 2#8, .byte 3#8]) =
        .next t ∧
      t.fault = 0#8 ∧ t.r.busy = none ∧
      t.source.log = (withReader 0#32 32 [.byte 1#8, .byte 2#8, .byte 3#8]).source.log ++
        [{ issuer := .unit, answer := .byte 1#8 }, { issuer := .unit, answer := .byte 2#8 },
          { issuer := .unit, answer := .byte 3#8 }] :=
  ⟨by simp, by decide, _, rfl, by decide, by decide, by decide⟩

/-- Two readers that differ in a stale bit only. -/
theorem witness_StaleAccumulatorBitsAreUnobservable :
    SameButStaleBits (withInput (.command 0x21000000#32) (withReader 0xA5000000#32 25 []))
      (withInput (.command 0x21000000#32) (withReader 0xA4000000#32 25 [])) ∧
    (nextOf (step (withInput (.command 0x21000000#32) (withReader 0xA5000000#32 25 [])))).isSome = true := by
  unfold SameButStaleBits
  decide

/-- Fields of 15 bits, of none and of 3 with a bit above the width; then the bytes back. -/
theorem witness_RoundTrip :
    (∀ f ∈ [(15, 0x7FFF#16), (0, 5#16), (3, 0xA#16)], f.1 ≤ 15) ∧
    WriterReady (withWriter 0#32 0 [.ok, .ok, .ok]) ∧
    (∃ t, runProgram ([(15, 0x7FFF#16), (0, 5#16), (3, 0xA#16)].map (fun f => .wBits f.1 f.2) ++ [.wFlush])
        (withWriter 0#32 0 [.ok, .ok, .ok]) = .next t ∧
      t.responses = (withWriter 0#32 0 [.ok, .ok, .ok]).responses ++
        List.replicate (3 + 1) (okResponse .writer 0#16) ∧
      (withReader 0#32 32 [.byte 0xFF#8, .byte 0x7F#8, .byte 0x01#8]).source.answers =
        (t.sink.stream.drop (withWriter 0#32 0 [.ok, .ok, .ok]).sink.stream.length).map SourceAnswer.byte) ∧
    ReaderReady (withReader 0#32 32 [.byte 0xFF#8, .byte 0x7F#8, .byte 0x01#8]) :=
  ⟨by decide, by decide, ⟨_, rfl, by decide, by decide⟩, by decide⟩

theorem witness_CommandsLeaveTheOtherUnitAlone :
    (Instr.wFlush.unit = .writer ∧ ∃ t, exec .wFlush (withWriter 0#32 0 [.ok]) = .next t) ∧
    (Instr.rBit.unit = .reader ∧ ∃ t, exec .rBit (withReader 0#32 24 []) = .next t) :=
  ⟨⟨rfl, _, rfl⟩, ⟨rfl, _, rfl⟩⟩

/-- The reader is attached in one state and not in the other. -/
theorem witness_WriterCommandsDoNotReadReaderState :
    Instr.wFlush.unit = .writer ∧ (withReader 1#32 9 []).w = State.reset.w ∧
    (withReader 1#32 9 []).sink = State.reset.sink ∧ (withReader 1#32 9 []).fault = State.reset.fault ∧
    (withReader 1#32 9 []).r ≠ State.reset.r := by decide

theorem witness_ReaderCommandsDoNotReadWriterState :
    Instr.rBit.unit = .reader ∧ (failedWriter 1#32 16).r = State.reset.r ∧
    (failedWriter 1#32 16).source = State.reset.source ∧ (failedWriter 1#32 16).fault = State.reset.fault ∧
    (failedWriter 1#32 16).config = State.reset.config ∧ (failedWriter 1#32 16).w ≠ State.reset.w := by decide

theorem witness_UnitTakesOneCommandAtATime :
    unitIsBusy Instr.rReset.unit (waitingReader .powerOn) = true ∧ State.reset.inputs = [] ∧
    refusalOf (exec .rReset (waitingReader .powerOn)) = some (.unitBusy .reader) := by decide

/-- Both clauses: an emission that waits and is accepted, a fill that waits and gets its byte. -/
theorem witness_LateAnswerResumesTheCommand :
    (∃ t, exec (.wBits 15 1#16) (withInput (.sinkAnswer .ok) (withWriter 1#32 15 [])) = .next t ∧
      t.w.busy ≠ none ∧ t.inputs = [.sinkAnswer .ok]) ∧
    (∃ t, exec (.rBits 16) (withInput (.sourceAnswer (.byte 1#8)) (withReader 0#32 32 [])) = .next t ∧
      t.r.busy ≠ none ∧ t.inputs = [.sourceAnswer (.byte 1#8)]) :=
  ⟨⟨_, rfl, by decide, by decide⟩, ⟨_, rfl, by decide, by decide⟩⟩

theorem witness_StreamsOnlyGoForward :
    ∃ s t : State, step s = .next t ∧ (∀ as, s.inputs.head? ≠ some (.connectSink as)) ∧
      (∀ as, s.inputs.head? ≠ some (.connectSource as)) ∧ t.sink.stream ≠ s.sink.stream :=
  ⟨withInput (.command 0x11000001#32) (withWriter 0x7FFF#32 15 [.ok]), _, rfl, fun _ h => (by cases h),
    fun _ h => (by cases h), by decide⟩

/-- Bit 7 of the second byte, the last. -/
theorem witness_WireFormatIsLsbFirst : [0xA5#8, 0xD5#8][15 / 8]? = some 0xD5#8 := by decide

/-- The three clauses of each stream: outside the interval, inside it with an answer, and without one. -/
theorem witness_HostUsesAnExposedStreamOnly :
    ((withInput (.hostSink .flush) (withWriter 0#32 0 [.ok])).inputs = [.hostSink .flush] ∧
      (withWriter 0#32 0 [.ok]).sink.exposed = false ∧ (withWriter 0#32 0 [.ok]).w.attached = true) ∧
    ((withInput (.hostSink .flush) State.reset).w.attached = false ∧ State.reset.sink.answers = []) ∧
    ((withInput .hostSource (withReader 0#32 32 [.byte 1#8])).inputs = [.hostSource] ∧
      (withReader 0#32 32 [.byte 1#8]).source.exposed = false ∧
      (withReader 0#32 32 [.byte 1#8]).r.attached = true) ∧
    (State.reset.r.attached = false ∧ State.reset.source.answers = []) ∧
    (∃ s : State, s.sink.exposed = true ∧ s.sink.answers = [.ok] ∧ s.inputs = [.hostSink (.write8 7#8)]) ∧
    (∃ s : State, s.source.exposed = true ∧ s.source.answers = [.byte 7#8] ∧ s.inputs = [.hostSource]) :=
  ⟨by decide, by decide, by decide, by decide,
    ⟨withInput (.hostSink (.write8 7#8)) ((withWriter 0#32 0 []).setSink
      { answers := [.ok], log := [], exposed := true }), by decide, by decide, by decide⟩,
    ⟨withInput .hostSource ((withReader 0#32 32 []).setSource
      { answers := [.byte 7#8], log := [], exposed := true }), by decide, by decide, by decide⟩⟩

/-- With 7 bits buffered and two fills to make, the most; with nothing buffered and one; with 23 bits buffered, the most,
and none. -/
theorem witness_HostReadIsSkippedByTheNextFill :
    (∃ s : State, ReaderReady s ∧ s.source.exposed = true ∧ s.r.offset = 25 ∧ (ReadCmd.bits 16).width ≤ 16 ∧
      [2#8, 3#8].length = fillsNeeded s.r.offset (ReadCmd.bits 16).width ∧ s.inputs = [.hostSource] ∧
      s.source.answers = .byte 1#8 :: ([2#8, 3#8].map SourceAnswer.byte ++ [])) ∧
    (∃ s : State, ReaderReady s ∧ s.source.exposed = true ∧ s.r.offset = 32 ∧
      [2#8].length = fillsNeeded s.r.offset ReadCmd.bit.width ∧ s.inputs = [.hostSource] ∧
      s.source.answers = .byte 1#8 :: ([2#8].map SourceAnswer.byte ++ [])) ∧
    (∃ s : State, ReaderReady s ∧ s.source.exposed = true ∧ s.r.offset = 9 ∧
      ([] : List Byte).length = fillsNeeded s.r.offset (ReadCmd.peek 16).width ∧ s.inputs = [.hostSource] ∧
      s.source.answers = .byte 1#8 :: (([] : List Byte).map SourceAnswer.byte ++ [])) :=
  ⟨⟨withInput .hostSource ((withReader 0x01000000#32 25 []).setSource
      { answers := [.byte 1#8, .byte 2#8, .byte 3#8], log := [], exposed := true }), by decide⟩,
    ⟨withInput .hostSource ((withReader 0#32 32 []).setSource
      { answers := [.byte 1#8, .byte 2#8], log := [], exposed := true }), by decide⟩,
    ⟨withInput .hostSource ((withReader 0#32 9 []).setSource
      { answers := [.byte 1#8], log := [], exposed := true }), by decide⟩⟩

/-- Each refusal happens where its clause says. -/
theorem witness_StepStopsOnlyOnRefusedInputs :
    refusalOf (step (waitingReader (.command 0x25000000#32))) = some (.unitBusy .reader) ∧
    refusalOf (step (waitingWriter (.command 0x1F000000#32))) = some (.unitBusy .writer) ∧
    refusalOf (step (withInput (.hostSink .flush) (withWriter 0#32 0 [.ok]))) = some (.streamNotExposed .writer) ∧
    refusalOf (step (withInput .hostSource (withReader 0#32 32 [.byte 1#8]))) = some (.streamNotExposed .reader) ∧
    refusalOf (step (withInput (.connectSink []) (withWriter 0#32 0 []))) = some (.streamOwned .writer) ∧
    refusalOf (step (withInput (.connectSource []) (withReader 0#32 32 []))) = some (.streamOwned .reader) := by decide

theorem inv_waitingReader : (waitingReader (.sourceAnswer (.byte 1#8))).Inv where
  accBelowFilled := by decide
  filledBound := by decide
  filledIdle := by decide
  writerWaits := fun p h => by cases h
  offsetRange := by decide
  readerWaits := fun c h => by cases h; decide
  poisonOnlyInPoisonMode := by decide
  faultCode := by decide
  sinkExposed := by decide
  sourceExposed := by decide

/-- A flush from the fullest writer, and a waiting read that gets a byte. -/
theorem witness_EveryStepKeepsTheInvariant :
    ((withWriter 0x55A5#32 15 [.ok, .ok, .ok]).Inv ∧
      ∃ t, step (withWriter 0x55A5#32 15 [.ok, .ok, .ok]) = .next t) ∧
    ((waitingReader (.sourceAnswer (.byte 1#8))).Inv ∧
      ∃ t, step (waitingReader (.sourceAnswer (.byte 1#8))) = .next t ∧ t.r.busy = some (.bits 16)) :=
  ⟨⟨inv_withWriter_full, _, rfl⟩, ⟨inv_waitingReader, _, rfl, by decide⟩⟩

/-- A command of the other unit reaches a block in which one unit waits. -/
theorem witness_ParametersAndWaitingCommandsStand :
    (∃ s t : State, step s = .next t ∧ s.w.busy = some .emission ∧
      (∀ a, s.inputs.head? ≠ some (.sinkAnswer a)) ∧ s.inputs.head? ≠ some .powerOn) ∧
    (∃ s t : State, step s = .next t ∧ s.r.busy = some (.bits 16) ∧
      (∀ a, s.inputs.head? ≠ some (.sourceAnswer a)) ∧ s.inputs.head? ≠ some .powerOn) :=
  ⟨⟨waitingWriter (.command 0x20000000#32), _, rfl, by decide, fun _ h => (by cases h), by decide⟩,
    ⟨waitingReader (.command 0x10000000#32), _, rfl, by decide, fun _ h => (by cases h), by decide⟩⟩

end Sys2Proof.Tests
end

section
/-! What a command and the other inputs of the outside world leave unchanged, and O60. -/

namespace Sys2Proof.Machine

open Sys2Proof

/-! ### Commands -/

/-- From `s` to `t` the parameters, the inputs to come, and the unit and stream beside those of `u` are unchanged
(R6, R35). -/
def OnlyUnitChanged (u : UnitId) (s t : State) : Prop :=
  t.config = s.config ∧ t.inputs = s.inputs ∧
    match u with
    | .writer => t.r = s.r ∧ t.source = s.source
    | .reader => t.w = s.w ∧ t.sink = s.sink

theorem onlyUnitChanged_writer {s t : State} : OnlyUnitChanged .writer s t ↔
    t.config = s.config ∧ t.inputs = s.inputs ∧ t.r = s.r ∧ t.source = s.source := Iff.rfl

theorem onlyUnitChanged_reader {s t : State} : OnlyUnitChanged .reader s t ↔
    t.config = s.config ∧ t.inputs = s.inputs ∧ t.w = s.w ∧ t.sink = s.sink := Iff.rfl

/-- A command whose effect changes only its own unit changes only that unit; a fault does so as well (R155). -/
theorem commandTo_onlyUnitChanged {u : UnitId} {checks : List Check} {eff : State → State} {s t : State}
    (heff : ∀ x, OnlyUnitChanged u x (eff x)) (h : commandTo u checks eff s = .next t) : OnlyUnitChanged u s t := by
  obtain ⟨-, ⟨-, rfl⟩ | ⟨-, c, -, rfl⟩ | ⟨-, -, rfl⟩⟩ := commandTo_cases h
  · cases u <;> simp [OnlyUnitChanged]
  · cases u <;> simp [OnlyUnitChanged]
  · have hclosed := heff (closeInterval u s)
    cases u <;> simpa [OnlyUnitChanged] using hclosed

theorem writeField_onlyUnitChanged (w : Nat) (v : Half) (s : State) :
    OnlyUnitChanged .writer s (writeField w v s) := by
  obtain ⟨hconfig, hr, -, hsource, hinputs, -, -⟩ := writeField_frame w v s
  exact ⟨hconfig, hinputs, hr, hsource⟩

theorem drainAndFlush_onlyUnitChanged (s : State) : OnlyUnitChanged .writer s (drainAndFlush s) := by
  obtain ⟨hconfig, hr, -, hsource, hinputs, -, -⟩ := drainAndFlush_frame s
  exact ⟨hconfig, hinputs, hr, hsource⟩

theorem readField_onlyUnitChanged (c : ReadCmd) (s : State) : OnlyUnitChanged .reader s (readField c s) := by
  obtain ⟨hconfig, hw, -, hsink, hinputs, -, -⟩ := readField_frame c s
  exact ⟨hconfig, hinputs, hw, hsink⟩

/-- A command changes only its own unit, that unit's stream, `FAULT` and the responses (R35). -/
theorem exec_onlyUnitChanged {i : Instr} {s t : State} (h : exec i s = .next t) : OnlyUnitChanged i.unit s t := by
  cases i with
  | wNew => exact commandTo_onlyUnitChanged (eff := attachWriter) (fun _ => ⟨rfl, rfl, rfl, rfl⟩) h
  | wBit b => exact commandTo_onlyUnitChanged (writeField_onlyUnitChanged 1 (bitValue b)) h
  | wBits w v => exact commandTo_onlyUnitChanged (writeField_onlyUnitChanged w v) h
  | wFlush => exact commandTo_onlyUnitChanged drainAndFlush_onlyUnitChanged h
  | wInner => exact commandTo_onlyUnitChanged (eff := exposeSink) (fun _ => ⟨rfl, rfl, rfl, rfl⟩) h
  | wUnwrap => exact commandTo_onlyUnitChanged (eff := detachWriter) (fun _ => ⟨rfl, rfl, rfl, rfl⟩) h
  | rNew => exact commandTo_onlyUnitChanged (eff := attachReader) (fun _ => ⟨rfl, rfl, rfl, rfl⟩) h
  | rBit => exact commandTo_onlyUnitChanged (readField_onlyUnitChanged .bit) h
  | rBits w => exact commandTo_onlyUnitChanged (readField_onlyUnitChanged (.bits w)) h
  | rPeek w => exact commandTo_onlyUnitChanged (readField_onlyUnitChanged (.peek w)) h
  | rSkip w => exact commandTo_onlyUnitChanged (eff := skipBits w) (fun _ => ⟨rfl, rfl, rfl, rfl⟩) h
  | rReset => exact commandTo_onlyUnitChanged (eff := dropBuffer) (fun _ => ⟨rfl, rfl, rfl, rfl⟩) h
  | rInner => exact commandTo_onlyUnitChanged (eff := exposeSource) (fun _ => ⟨rfl, rfl, rfl, rfl⟩) h
  | rUnwrap => exact commandTo_onlyUnitChanged (eff := detachReader) (fun _ => ⟨rfl, rfl, rfl, rfl⟩) h

/-- A command that answers a next state was issued to an idle unit (R69). -/
theorem exec_next_unit_idle {i : Instr} {s t : State} (h : exec i s = .next t) : unitIsBusy i.unit s = false := by
  obtain ⟨checks, eff, hexec⟩ := exec_eq_commandTo i s
  exact (commandTo_cases (hexec ▸ h)).1

/-- A word that is given a step goes to an idle unit, which alone changes, or to no unit, and then only `FAULT` and the
responses change (R64, R69). -/
theorem issueWord_next {word : Word} {s t : State} (h : issueWord word s = .next t) :
    (∃ u, unitIsBusy u s = false ∧ OnlyUnitChanged u s t) ∨ ∀ u, OnlyUnitChanged u s t := by
  unfold issueWord at h
  split at h
  next i _ => exact .inl ⟨i.unit, exec_next_unit_idle h, exec_onlyUnitChanged h⟩
  next =>
    cases hu : selectUnit word with
    | some u =>
      rw [hu] at h
      have hid : ∀ x, OnlyUnitChanged u x (id x) := fun x => by cases u <;> exact ⟨rfl, rfl, rfl, rfl⟩
      exact .inl ⟨u, (commandTo_cases h).1, commandTo_onlyUnitChanged hid h⟩
    | none =>
      rw [hu] at h
      simp only [illegalWord, afterChecks, Host.Outcome.next.injEq] at h
      subst h
      refine .inr fun u => ?_
      split <;> cases u <;> exact ⟨rfl, rfl, rfl, rfl⟩

/-- No command word changes the parameters or a unit that waits for its stream (R6, R69). -/
theorem issueWord_keeps_waiting {word : Word} {s t : State} (h : issueWord word s = .next t) :
    t.config = s.config ∧ (s.w.busy ≠ none → t.w = s.w) ∧ (s.r.busy ≠ none → t.r = s.r) := by
  obtain ⟨u, hidle, hu⟩ | hall := issueWord_next h
  · cases u with
    | writer =>
      obtain ⟨hconfig, -, hr, -⟩ := onlyUnitChanged_writer.mp hu
      exact ⟨hconfig, fun hb => absurd (by simpa [unitIsBusy] using hidle) hb, fun _ => hr⟩
    | reader =>
      obtain ⟨hconfig, -, hw, -⟩ := onlyUnitChanged_reader.mp hu
      exact ⟨hconfig, fun _ => hw, fun hb => absurd (by simpa [unitIsBusy] using hidle) hb⟩
  · obtain ⟨hconfig, -, hr, -⟩ := onlyUnitChanged_writer.mp (hall .writer)
    obtain ⟨-, -, hw, -⟩ := onlyUnitChanged_reader.mp (hall .reader)
    exact ⟨hconfig, fun _ => hw, fun _ => hr⟩

/-! ### The other inputs -/

/-- What a host transaction on the sink that is given a step did: it waits, or it took the sink's next answer (R137). -/
theorem hostUsesSink_cases {x : SinkTxn} {s t : State} (h : hostUsesSink x s = .next t) :
    hostMayUseSink s = true ∧
      ((s.sink.answers = [] ∧ t = s.setInputs (.hostSink x :: s.inputs)) ∨
       ∃ a rest, s.sink.answers = a :: rest ∧ t = recordSink .host x a (setSinkAnswers rest s)) := by
  unfold hostUsesSink at h
  split at h
  next hmay =>
    split at h <;> cases h
    next hnil => exact ⟨hmay, .inl ⟨hnil, rfl⟩⟩
    next a rest hcons => exact ⟨hmay, .inr ⟨a, rest, hcons, rfl⟩⟩
  next => cases h

/-- What a host read of the source that is given a step did, as `hostUsesSink_cases`. -/
theorem hostUsesSource_cases {s t : State} (h : hostUsesSource s = .next t) :
    hostMayUseSource s = true ∧
      ((s.source.answers = [] ∧ t = s.setInputs (.hostSource :: s.inputs)) ∨
       ∃ a rest, s.source.answers = a :: rest ∧ t = recordSource .host a (setSourceAnswers rest s)) := by
  unfold hostUsesSource at h
  split at h
  next hmay =>
    split at h <;> cases h
    next hnil => exact ⟨hmay, .inl ⟨hnil, rfl⟩⟩
    next a rest hcons => exact ⟨hmay, .inr ⟨a, rest, hcons, rfl⟩⟩
  next => cases h

/-- A sink is connected only to a port whose unit owns none (R130). -/
theorem connectSink_next {as : List SinkAnswer} {s t : State} (h : connectSink as s = .next t) :
    s.w.attached = false ∧ t = s.setSink { answers := as, log := [], exposed := false } := by
  unfold connectSink at h
  split at h <;> cases h
  next hfree => exact ⟨by simpa using hfree, rfl⟩

/-- A source is connected only to a port whose unit owns none (R130). -/
theorem connectSource_next {as : List SourceAnswer} {s t : State} (h : connectSource as s = .next t) :
    s.r.attached = false ∧ t = s.setSource { answers := as, log := [], exposed := false } := by
  unfold connectSource at h
  split at h <;> cases h
  next hfree => exact ⟨by simpa using hfree, rfl⟩

/-- No input changes the parameters; a waiting unit is changed only by its stream's answer or a power-on reset (R6, R69,
R162). -/
theorem takeInput_keeps_waiting {x : Input} {s t : State} (h : takeInput x s = .next t) :
    t.config = s.config ∧
      (s.w.busy ≠ none → (∀ a, x ≠ .sinkAnswer a) → x ≠ .powerOn → t.w = s.w) ∧
      (s.r.busy ≠ none → (∀ a, x ≠ .sourceAnswer a) → x ≠ .powerOn → t.r = s.r) := by
  cases x with
  | command word =>
    obtain ⟨hconfig, hw, hr⟩ := issueWord_keeps_waiting h
    exact ⟨hconfig, fun hb _ _ => hw hb, fun hb _ _ => hr hb⟩
  | sinkAnswer a =>
    cases h
    obtain ⟨hconfig, hr, -⟩ := pumpWriter_frame (s.sink.answers ++ [a]) (setSinkAnswers (s.sink.answers ++ [a]) s)
    exact ⟨hconfig, fun _ hx _ => absurd rfl (hx a), fun _ _ _ => hr⟩
  | sourceAnswer a =>
    cases h
    obtain ⟨hconfig, hw, -⟩ := pumpReader_frame (s.source.answers ++ [a]) (setSourceAnswers (s.source.answers ++ [a]) s)
    exact ⟨hconfig, fun _ _ _ => hw, fun _ hx _ => absurd rfl (hx a)⟩
  | hostSink y => obtain ⟨-, ⟨-, rfl⟩ | ⟨a, rest, -, rfl⟩⟩ := hostUsesSink_cases h <;> simp
  | hostSource => obtain ⟨-, ⟨-, rfl⟩ | ⟨a, rest, -, rfl⟩⟩ := hostUsesSource_cases h <;> simp
  | connectSink as => obtain ⟨-, rfl⟩ := connectSink_next h; simp
  | connectSource as => obtain ⟨-, rfl⟩ := connectSource_next h; simp
  | powerOn =>
    cases h
    exact ⟨rfl, fun _ _ hx => absurd rfl hx, fun _ _ hx => absurd rfl hx⟩

/-! ### Steps -/

/-- A step with nothing to come leaves the state as it is (assumption log 15). -/
theorem step_of_no_input {s : State} (h : s.inputs = []) : step s = .next s := by
  simp [step, nextInput, h]

/-- A step takes the next input out of the list (R14). -/
theorem step_of_input {x : Input} {rest : List Input} {s : State} (h : s.inputs = x :: rest) :
    step s = takeInput x (s.setInputs rest) := by
  simp [step, nextInput, h]

/-- Settles O60: a word is given a step only by a unit that does not wait, and leaves the other unit as it is; an answer
runs its own unit only; no other input but a power-on reset touches a unit. -/
theorem parametersAndWaitingCommandsStand : Obligations.ParametersAndWaitingCommandsStand := by
  unfold Obligations.ParametersAndWaitingCommandsStand
  intro s t hstep
  cases hin : s.inputs with
  | nil =>
    cases (step_of_no_input hin).symm.trans hstep
    exact ⟨rfl, fun _ _ _ _ => rfl, fun _ _ _ _ => rfl⟩
  | cons x rest =>
    obtain ⟨hconfig, hw, hr⟩ := takeInput_keeps_waiting ((step_of_input hin).symm.trans hstep)
    refine ⟨hconfig, fun p hb hanswer hreset => ?_, fun c hb hanswer hreset => ?_⟩
    · exact hw (by simp [hb]) (by simpa using hanswer) (by simpa using hreset)
    · exact hr (by simp [hb]) (by simpa using hanswer) (by simpa using hreset)

end Sys2Proof.Machine
end

section
/-! The invariant of the block, cut into the parts of its units and ports, and O57 and O58. -/

namespace Sys2Proof.Machine

open Sys2Proof

/-! ### The parts of the invariant -/

/-- What `State.Inv` says of the writer's registers, where `FAULT` holds `fault` (R24, R25). It leaves out the sink's
answers, so it also holds between two answers of one command. -/
structure WriterUnit.Inv (w : WriterUnit) (fault : Byte) : Prop where
  accBelowFilled : w.acc.toNat < 2 ^ w.filled
  filledBound : w.filled ≤ 30
  filledIdle : fault = 0#8 → w.failed = false → w.busy = none → w.filled ≤ 15
  waits : ∀ p, w.busy = some p → w.attached = true ∧ w.failed = false ∧ p.filledOk w.filled

/-- What `State.Inv` says of the sink of a writer `w` (R132, R137, R162). -/
structure SinkPort.Inv (p : SinkPort) (w : WriterUnit) : Prop where
  waits : w.busy ≠ none → p.answers = [] ∧ p.exposed = false
  exposed : p.exposed = true → w.attached = true

/-- What `State.Inv` says of the reader's registers (R29, R101, R103, R112), as `WriterUnit.Inv`. -/
structure ReaderUnit.Inv (r : ReaderUnit) (config : Config) : Prop where
  offsetRange : 9 ≤ r.offset ∧ r.offset ≤ 32
  waits : ∀ c, r.busy = some c →
    r.attached = true ∧ (config.readerFailState == .poison && r.poisoned) = false ∧
      c.width ≤ 16 ∧ r.offset ≤ 24 ∧ 24 < c.width + r.offset ∧ r.acc.toNat < 2 ^ 24
  poison : config.readerFailState = .stepOrder → r.poisoned = false

/-- What `State.Inv` says of the source of a reader `r` (R135, R137, R162). -/
structure SourcePort.Inv (p : SourcePort) (r : ReaderUnit) : Prop where
  waits : r.busy ≠ none → p.answers = [] ∧ p.exposed = false
  exposed : p.exposed = true → r.attached = true

/-- The invariant is that of each unit, that of each port, and a fault code of the table (R152). -/
theorem State.inv_iff {s : State} :
    s.Inv ↔ s.w.Inv s.fault ∧ s.sink.Inv s.w ∧ s.r.Inv s.config ∧ s.source.Inv s.r ∧ s.fault.toNat ≤ 8 := by
  constructor
  · intro h
    refine ⟨⟨h.accBelowFilled, h.filledBound, h.filledIdle, fun p hp => ?_⟩, ⟨fun hb => ?_, h.sinkExposed⟩,
      ⟨h.offsetRange, fun c hc => ?_, h.poisonOnlyInPoisonMode⟩, ⟨fun hb => ?_, h.sourceExposed⟩, h.faultCode⟩
    · obtain ⟨hatt, hfailed, -, -, hfilled⟩ := h.writerWaits p hp
      exact ⟨hatt, hfailed, hfilled⟩
    · obtain ⟨p, hp⟩ := Option.ne_none_iff_exists'.mp hb
      obtain ⟨-, -, hans, hexp, -⟩ := h.writerWaits p hp
      exact ⟨hans, hexp⟩
    · obtain ⟨hatt, hpoison, -, -, hcounts⟩ := h.readerWaits c hc
      exact ⟨hatt, hpoison, hcounts⟩
    · obtain ⟨c, hc⟩ := Option.ne_none_iff_exists'.mp hb
      obtain ⟨-, -, hans, hexp, -⟩ := h.readerWaits c hc
      exact ⟨hans, hexp⟩
  · rintro ⟨hw, hsink, hr, hsource, hfault⟩
    refine ⟨hw.accBelowFilled, hw.filledBound, hw.filledIdle, fun p hp => ?_, hr.offsetRange, fun c hc => ?_, hr.poison,
      hfault, hsink.exposed, hsource.exposed⟩
    · obtain ⟨hatt, hfailed, hfilled⟩ := hw.waits p hp
      obtain ⟨hans, hexp⟩ := hsink.waits (by simp [hp])
      exact ⟨hatt, hfailed, hans, hexp, hfilled⟩
    · obtain ⟨hatt, hpoison, hcounts⟩ := hr.waits c hc
      obtain ⟨hans, hexp⟩ := hsource.waits (by simp [hc])
      exact ⟨hatt, hpoison, hans, hexp, hcounts⟩

/-- An idle writer with at most 15 bits buffered, whatever is latched. -/
theorem WriterUnit.Inv.of_idle {w : WriterUnit} {fault : Byte} (hacc : w.acc.toNat < 2 ^ w.filled)
    (hfilled : w.filled ≤ 15) (hidle : w.busy = none) : w.Inv fault :=
  ⟨hacc, by omega, fun _ _ _ => hfilled, by simp [hidle]⟩

/-- A fault latched later leaves the writer's part as it is: it only asks for less (log 8). -/
theorem WriterUnit.Inv.of_latched {w : WriterUnit} {fault code : Byte} (h : w.Inv fault) (hcode : code ≠ 0#8) :
    w.Inv code :=
  ⟨h.accBelowFilled, h.filledBound, fun h0 => absurd h0 hcode, h.waits⟩

/-- A port the host may not use, of a unit that does not wait, meets the invariant. -/
theorem SinkPort.Inv.of_closed {p : SinkPort} {w : WriterUnit} (hclosed : p.exposed = false) (hidle : w.busy = none) :
    p.Inv w :=
  ⟨fun hb => absurd hidle hb, by simp [hclosed]⟩

/-- As `SinkPort.Inv.of_closed`, for the source. -/
theorem SourcePort.Inv.of_closed {p : SourcePort} {r : ReaderUnit} (hclosed : p.exposed = false)
    (hidle : r.busy = none) : p.Inv r :=
  ⟨fun hb => absurd hidle hb, by simp [hclosed]⟩

/-! ### Updates that keep the invariant -/

/-- Responses and inputs to come do not enter the invariant. -/
@[simp] theorem inv_pushResponse {s : State} {x : Response} : (s.pushResponse x).Inv ↔ s.Inv := by
  simp [State.inv_iff]

@[simp] theorem inv_setInputs {s : State} {x : List Input} : (s.setInputs x).Inv ↔ s.Inv := by
  simp [State.inv_iff]

@[simp] theorem inv_respondOk {s : State} {u : UnitId} {d : Half} : (respondOk u d s).Inv ↔ s.Inv := inv_pushResponse

@[simp] theorem inv_respondFault {s : State} {u : Option UnitId} : (respondFault u s).Inv ↔ s.Inv := inv_pushResponse

theorem State.Inv.setW {s : State} {w : WriterUnit} (h : s.Inv) (hw : w.Inv s.fault) (hsink : s.sink.Inv w) :
    (s.setW w).Inv :=
  have ⟨_, _, hr, hsource, hfault⟩ := State.inv_iff.mp h
  State.inv_iff.mpr ⟨hw, hsink, hr, hsource, hfault⟩

theorem State.Inv.setR {s : State} {r : ReaderUnit} (h : s.Inv) (hr : r.Inv s.config) (hsource : s.source.Inv r) :
    (s.setR r).Inv :=
  have ⟨hw, hsink, _, _, hfault⟩ := State.inv_iff.mp h
  State.inv_iff.mpr ⟨hw, hsink, hr, hsource, hfault⟩

theorem State.Inv.setSink {s : State} {p : SinkPort} (h : s.Inv) (hsink : p.Inv s.w) : (s.setSink p).Inv :=
  have ⟨hw, _, hr, hsource, hfault⟩ := State.inv_iff.mp h
  State.inv_iff.mpr ⟨hw, hsink, hr, hsource, hfault⟩

theorem State.Inv.setSource {s : State} {p : SourcePort} (h : s.Inv) (hsource : p.Inv s.r) : (s.setSource p).Inv :=
  have ⟨hw, hsink, hr, _, hfault⟩ := State.inv_iff.mp h
  State.inv_iff.mpr ⟨hw, hsink, hr, hsource, hfault⟩

/-- The codes of R152 are 1 to 8. -/
theorem FaultCode.code_range (c : FaultCode) : c.code ≠ 0#8 ∧ c.code.toNat ≤ 8 := by
  cases c <;> decide

theorem State.Inv.raiseFault {s : State} (h : s.Inv) (u : Option UnitId) (c : FaultCode) :
    (raiseFault u c s).Inv := by
  obtain ⟨hw, hsink, hr, hsource, -⟩ := State.inv_iff.mp h
  obtain ⟨hne, hle⟩ := c.code_range
  exact State.inv_iff.mpr ⟨hw.of_latched hne, hsink, hr, hsource, hle⟩

theorem State.Inv.closeInterval {s : State} (h : s.Inv) (u : UnitId) : (closeInterval u s).Inv := by
  obtain ⟨-, hsink, -, hsource, -⟩ := State.inv_iff.mp h
  cases u with
  | writer => exact h.setSink ⟨fun hb => ⟨(hsink.waits hb).1, rfl⟩, by simp⟩
  | reader => exact h.setSource ⟨fun hb => ⟨(hsource.waits hb).1, rfl⟩, by simp⟩

/-- A command keeps the invariant if its effect does where its checks pass: a faulting command changes only `FAULT` and
the interval (R155). -/
theorem State.Inv.commandTo {u : UnitId} {checks : List Check} {eff : State → State} {s t : State} (hs : s.Inv)
    (heff : firstFault checks = none → s.fault = 0#8 → unitIsBusy u s = false →
      (Machine.closeInterval u s).Inv → (eff (Machine.closeInterval u s)).Inv)
    (h : Machine.commandTo u checks eff s = .next t) : t.Inv := by
  have hclosed := hs.closeInterval u
  obtain ⟨hidle, ⟨-, rfl⟩ | ⟨-, c, -, rfl⟩ | ⟨hfault, hpass, rfl⟩⟩ := commandTo_cases h
  · exact inv_respondFault.mpr hclosed
  · exact hclosed.raiseFault (some u) c
  · exact heff hpass hfault hidle hclosed

/-! ### The writer -/

/-- The head of W.FLUSH's loop asks for a byte exactly while bits are buffered (R86). -/
theorem nextDrain_filledOk {filled : Nat} (h : filled ≤ 15) : (nextDrain filled).filledOk filled := by
  unfold nextDrain
  split
  · exact ⟨by omega, h⟩
  · exact (by omega : filled = 0)

/-- An answer keeps the writer's part of the invariant: an accepted emission or byte leaves the buffer with its bits
shifted out (R83, R86), a failure only latches `W.failed` (R84, R87), and under a latched fault the command ends (log
8). -/
theorem writerAnswered_unitInv {p : WriterWait} {a : SinkAnswer} {s : State} (hb : s.w.busy = some p)
    (h : s.w.Inv s.fault) : (writerAnswered p a s).w.Inv (writerAnswered p a s).fault := by
  obtain ⟨hatt, hfailed, hfilled⟩ := h.waits p hb
  have hacc := h.accBelowFilled
  have hbound := h.filledBound
  by_cases hf : s.fault = 0#8
  · rw [writerAnswered_clear hf]
    cases a with
    | ioError kept => exact ⟨hacc, hbound, by simp, by simp⟩
    | ok =>
      cases p with
      | emission => exact .of_idle (ushiftRight_lt 16 hacc) (by simp [writerOk]; omega) rfl
      | drain =>
        obtain ⟨-, hle⟩ := hfilled
        have hrest : s.w.filled - min 8 s.w.filled = s.w.filled - 8 := by omega
        refine ⟨?_, ?_, by simp [writerOk], fun q hq => ?_⟩
        · simpa [writerOk, hrest] using ushiftRight_lt 8 hacc
        · simp [writerOk]; omega
        · obtain rfl : nextDrain (s.w.filled - min 8 s.w.filled) = q := by simpa [writerOk] using hq
          exact ⟨hatt, hfailed, nextDrain_filledOk (by omega)⟩
      | flush =>
        have hzero : s.w.filled = 0 := hfilled
        exact .of_idle hacc (by simp [writerOk, hzero]) rfl
  · rw [writerAnswered_faulted hf]
    exact ⟨hacc, hbound, fun h0 => absurd h0 hf, by simp⟩

/-- Running the writer's command on the answers of a sink keeps the invariant, although between two of them a command
may wait before answers. -/
theorem pumpWriter_inv {as : List SinkAnswer} {s : State} (hw : s.w.Inv s.fault)
    (hclosed : s.w.busy ≠ none → s.sink.exposed = false) (hexp : s.sink.exposed = true → s.w.attached = true)
    (hr : s.r.Inv s.config) (hsource : s.source.Inv s.r) (hcode : s.fault.toNat ≤ 8) : (pumpWriter as s).Inv := by
  obtain ⟨hconfig', hr', hfault', hsource', -, hexp', hatt'⟩ := pumpWriter_frame as s
  refine State.inv_iff.mpr ⟨?_, ⟨fun hb => ⟨pumpWriter_waits as s hb, ?_⟩, by rwa [hexp', hatt']⟩,
    by rwa [hr', hconfig'], by rwa [hsource', hr'], by rwa [hfault']⟩
  · exact pumpWriter_induct (P := fun x => x.w.Inv x.fault) (fun _ _ h => h)
      (fun _ _ _ hb h => writerAnswered_unitInv hb h) as s hw
  · rw [hexp']
    refine hclosed fun hidle => hb ?_
    rw [pumpWriter_idle hidle]
    exact hidle

/-- Starting a sink transaction keeps the invariant. -/
theorem runWriter_setW_inv {s : State} {w : WriterUnit} (hs : s.Inv) (hw : w.Inv s.fault)
    (hclosed : s.sink.exposed = false) : (runWriter (s.setW w)).Inv := by
  obtain ⟨-, -, hr, hsource, hcode⟩ := State.inv_iff.mp hs
  exact pumpWriter_inv hw (fun _ => hclosed) (by simp [hclosed]) hr hsource hcode

/-- R83 keeps the invariant: at most 15 bits before the append and at most 15 appended. -/
theorem writeField_inv {w : Nat} {v : Half} {s : State} (hs : s.Inv) (hready : WriterReady s)
    (hclosed : s.sink.exposed = false) (hwidth : w ≤ 15) : (writeField w v s).Inv := by
  obtain ⟨hfault, hidle, hatt, hfailed⟩ := hready
  have hfilled := hs.filledIdle hfault hfailed hidle
  have hacc := appendField_lt (w := w) v hs.accBelowFilled (by omega)
  unfold writeField
  dsimp only
  split
  next hemit =>
    refine runWriter_setW_inv hs ⟨hacc, by dsimp only; omega, by simp, fun p hp => ?_⟩ hclosed
    cases hp
    exact ⟨hatt, hfailed, hemit⟩
  next hbelow =>
    simp only [Config.emitThreshold] at hbelow
    exact inv_respondOk.mpr (hs.setW (.of_idle hacc (by dsimp only; omega) hidle) (.of_closed hclosed hidle))

/-- R86 keeps the invariant. -/
theorem drainAndFlush_inv {s : State} (hs : s.Inv) (hready : WriterReady s) (hclosed : s.sink.exposed = false) :
    (drainAndFlush s).Inv := by
  obtain ⟨hfault, hidle, hatt, hfailed⟩ := hready
  refine runWriter_setW_inv hs ⟨hs.accBelowFilled, hs.filledBound, by simp, fun p hp => ?_⟩ hclosed
  cases hp
  exact ⟨hatt, hfailed, nextDrain_filledOk (hs.filledIdle hfault hfailed hidle)⟩

/-- The checks of R80 pass exactly for an attached writer that has not failed. -/
theorem writerDataChecks_pass {s : State} {more : List Check} :
    firstFault (writerDataChecks s ++ more) = none ↔
      s.w.attached = true ∧ s.w.failed = false ∧ firstFault more = none := by
  simp [firstFault_eq_none_iff, writerDataChecks, notAttachedCheck]

/-- A data command of the writer keeps the invariant if its effect does for a ready writer (R80). -/
theorem writerData_inv {more : List Check} {eff : State → State} {s t : State} (hs : s.Inv)
    (heff : firstFault more = none → ∀ x, x.Inv → WriterReady x → x.sink.exposed = false → (eff x).Inv)
    (h : commandTo .writer (writerDataChecks s ++ more) eff s = .next t) : t.Inv := by
  refine hs.commandTo (fun hpass hfault hidle hx => ?_) h
  obtain ⟨hatt, hfailed, hmore⟩ := writerDataChecks_pass.mp hpass
  exact heff hmore _ hx ⟨hfault, by simpa [unitIsBusy] using hidle, hatt, hfailed⟩ rfl

/-! ### The reader -/

/-- Between fewer buffered bits than a read needs and a fill there is room for a byte (R101, R103), and a finished read
stays within the buffer. -/
theorem peekLoop_unitInv {c : ReadCmd} {s : State} (hr : s.r.Inv s.config) (hatt : s.r.attached = true)
    (hpoison : readerPoisonedNow s = false) (hwidth : c.width ≤ 16) : (peekLoop c s).r.Inv s.config := by
  obtain ⟨hlow, hhigh⟩ := hr.offsetRange
  unfold peekLoop
  simp only [Config.raccBits]
  split
  next hfew =>
    refine ⟨by simp; omega, fun d hd => ?_, hr.poison⟩
    obtain rfl : c = d := by simpa using hd
    exact ⟨hatt, hpoison, hwidth, by simp; omega, by simp; omega, ushiftRight_lt 8 s.r.acc.isLt⟩
  next henough =>
    have hconsumed : c.consumed ≤ c.width := by cases c <;> simp [ReadCmd.consumed, ReadCmd.width]
    exact ⟨by simp; omega, by simp, hr.poison⟩

/-- Without a command in flight, only the offset and the poison of a reader matter to the invariant. -/
theorem ReaderUnit.Inv.of_idle {r : ReaderUnit} {config : Config} (hlow : 9 ≤ r.offset) (hhigh : r.offset ≤ 32)
    (hpoison : config.readerFailState = .stepOrder → r.poisoned = false) (hidle : r.busy = none) : r.Inv config :=
  ⟨⟨hlow, hhigh⟩, by simp [hidle], hpoison⟩

/-- An answer keeps the reader's part of the invariant: a byte leads back to the loop's head (R101, R103), a failed fill
poisons in POISON mode only (R112), and under a latched fault the command ends (log 8). -/
theorem readerAnswered_unitInv {c : ReadCmd} {a : SourceAnswer} {s : State} (hb : s.r.busy = some c)
    (h : s.r.Inv s.config) : (readerAnswered c a s).r.Inv (readerAnswered c a s).config := by
  obtain ⟨hatt, hpoison, hwidth, -⟩ := h.waits c hb
  obtain ⟨hlow, hhigh⟩ := h.offsetRange
  rw [(readerAnswered_frame c a s).1]
  have hfail : (failFill s).r.Inv s.config :=
    .of_idle hlow hhigh (fun hmode => by simp [h.poison hmode, hmode]) rfl
  by_cases hf : s.fault = 0#8
  · rw [readerAnswered_clear hf]
    cases a with
    | byte b => exact peekLoop_unitInv (.of_idle hlow hhigh h.poison rfl) hatt hpoison hwidth
    | endOfStream => exact hfail
    | ioError => exact hfail
  · rw [readerAnswered_faulted hf]
    exact .of_idle hlow hhigh h.poison rfl

/-- As `pumpWriter_inv`, for the reader. -/
theorem pumpReader_inv {as : List SourceAnswer} {s : State} (hr : s.r.Inv s.config)
    (hclosed : s.r.busy ≠ none → s.source.exposed = false) (hexp : s.source.exposed = true → s.r.attached = true)
    (hw : s.w.Inv s.fault) (hsink : s.sink.Inv s.w) (hcode : s.fault.toNat ≤ 8) : (pumpReader as s).Inv := by
  obtain ⟨-, hw', hfault', hsink', -, hexp', hatt'⟩ := pumpReader_frame as s
  refine State.inv_iff.mpr ⟨by rwa [hw', hfault'], by rwa [hsink', hw'], ?_,
    ⟨fun hb => ⟨pumpReader_waits as s hb, ?_⟩, by rwa [hexp', hatt']⟩, by rwa [hfault']⟩
  · exact pumpReader_induct (P := fun x => x.r.Inv x.config) (fun _ _ h => h)
      (fun _ _ _ hb h => readerAnswered_unitInv hb h) as s hr
  · rw [hexp']
    refine hclosed fun hidle => hb ?_
    rw [pumpReader_idle hidle]
    exact hidle

/-- R103 keeps the invariant. -/
theorem readField_inv {c : ReadCmd} {s : State} (hs : s.Inv) (hready : ReaderReady s)
    (hclosed : s.source.exposed = false) (hwidth : c.width ≤ 16) : (readField c s).Inv := by
  obtain ⟨-, -, hatt, hpoison⟩ := hready
  obtain ⟨hw, hsink, hr, -, hcode⟩ := State.inv_iff.mp hs
  obtain ⟨hconfig', hw', hfault', hsink', hsource', -, -⟩ := peekLoop_frame c s
  have hclosed' : (peekLoop c s).source.exposed = false := by rwa [hsource']
  exact pumpReader_inv (by rw [hconfig']; exact peekLoop_unitInv hr hatt hpoison hwidth) (fun _ => hclosed')
    (by simp [hclosed']) (by rwa [hw', hfault']) (by rwa [hsink', hw']) (by rwa [hfault'])

/-- R108 keeps the invariant: a skip stays within the buffered bits. -/
theorem skipBits_inv {w : Nat} {s : State} (hs : s.Inv) (hready : ReaderReady s)
    (hclosed : s.source.exposed = false) (hw : w ≤ 32 - s.r.offset) : (skipBits w s).Inv := by
  obtain ⟨-, hidle, -, -⟩ := hready
  obtain ⟨hlow, hhigh⟩ := hs.offsetRange
  exact inv_respondOk.mpr (hs.setR
    (.of_idle (by dsimp only; omega) (by dsimp only; omega) hs.poisonOnlyInPoisonMode hidle) (.of_closed hclosed hidle))

/-- The checks of R100 pass exactly for an attached reader that is not poisoned. -/
theorem readerDataChecks_pass {s : State} {more : List Check} :
    firstFault (readerDataChecks s ++ more) = none ↔
      s.r.attached = true ∧ readerPoisonedNow s = false ∧ firstFault more = none := by
  simp [firstFault_eq_none_iff, readerDataChecks, notAttachedCheck]

/-- A data command of the reader keeps the invariant if its effect does for a ready reader (R100). -/
theorem readerData_inv {more : List Check} {eff : State → State} {s t : State} (hs : s.Inv)
    (heff : firstFault more = none → ∀ x, x.r = s.r → x.Inv → ReaderReady x → x.source.exposed = false → (eff x).Inv)
    (h : commandTo .reader (readerDataChecks s ++ more) eff s = .next t) : t.Inv := by
  refine hs.commandTo (fun hpass hfault hidle hx => ?_) h
  obtain ⟨hatt, hpoison, hmore⟩ := readerDataChecks_pass.mp hpass
  exact heff hmore _ rfl hx ⟨hfault, by simpa [unitIsBusy] using hidle, hatt, hpoison⟩ rfl

/-! ### Commands -/

/-- The width check passes within the range (R156 step 5). -/
theorem widthCheck_applies {w max : Nat} : (widthCheck w max).applies = false ↔ w ≤ max := by
  simp [widthCheck]

/-- The lifecycle commands of the writer keep the invariant if their effects do for a writer that does not wait. -/
theorem writerLifecycle_inv {check : Check} {eff : State → State} {s t : State} (hs : s.Inv)
    (heff : check.applies = false → ∀ x, x.w = s.w → x.Inv → x.w.busy = none → x.sink.exposed = false → (eff x).Inv)
    (h : commandTo .writer [check] eff s = .next t) : t.Inv := by
  refine hs.commandTo (fun hpass _ hidle hx => ?_) h
  exact heff (by simpa [firstFault_eq_none_iff] using hpass) _ rfl hx (by simpa [unitIsBusy] using hidle) rfl

/-- As `writerLifecycle_inv`, for the reader. -/
theorem readerLifecycle_inv {check : Check} {eff : State → State} {s t : State} (hs : s.Inv)
    (heff : check.applies = false → ∀ x, x.r = s.r → x.Inv → x.r.busy = none → x.source.exposed = false → (eff x).Inv)
    (h : commandTo .reader [check] eff s = .next t) : t.Inv := by
  refine hs.commandTo (fun hpass _ hidle hx => ?_) h
  exact heff (by simpa [firstFault_eq_none_iff] using hpass) _ rfl hx (by simpa [unitIsBusy] using hidle) rfl

/-- Every command keeps the invariant. -/
theorem exec_inv {i : Instr} {s t : State} (hs : s.Inv) (h : exec i s = .next t) : t.Inv := by
  cases i with
  | wNew =>
    refine writerLifecycle_inv (eff := attachWriter) hs (fun _ x _ hx _ hclosed => ?_) h
    exact inv_respondOk.mpr (hx.setW (.of_idle (by decide) (by decide) rfl) (.of_closed hclosed rfl))
  | wBit b =>
    exact writerData_inv (more := []) hs
      (fun _ x hx hready hclosed => writeField_inv (v := bitValue b) hx hready hclosed (by decide)) h
  | wBits w v =>
    refine writerData_inv (eff := writeField w v) hs (fun hmore x hx hready hclosed => ?_) h
    exact writeField_inv hx hready hclosed
      (widthCheck_applies.mp ((firstFault_eq_none_iff _).mp hmore _ List.mem_cons_self))
  | wFlush =>
    exact writerData_inv (more := []) hs (fun _ x hx hready hclosed => drainAndFlush_inv hx hready hclosed) h
  | wInner =>
    refine writerLifecycle_inv (eff := exposeSink) hs (fun hpass x hxw hx hidle _ => ?_) h
    have hatt : x.w.attached = true := by simpa [notAttachedCheck, hxw] using hpass
    exact inv_respondOk.mpr (hx.setSink ⟨fun hb => absurd hidle hb, fun _ => hatt⟩)
  | wUnwrap =>
    refine writerLifecycle_inv (eff := detachWriter) hs (fun _ x _ hx hidle hclosed => ?_) h
    exact inv_respondOk.mpr (hx.setW ⟨hx.accBelowFilled, hx.filledBound, hx.filledIdle, by simp [hidle]⟩
      (.of_closed hclosed hidle))
  | rNew =>
    refine readerLifecycle_inv (eff := attachReader) hs (fun _ x _ hx _ hclosed => ?_) h
    exact inv_respondOk.mpr (hx.setR (.of_idle (by decide) (by decide) (fun _ => rfl) rfl) (.of_closed hclosed rfl))
  | rBit =>
    exact readerData_inv (more := []) hs
      (fun _ x _ hx hready hclosed => readField_inv (c := .bit) hx hready hclosed (by decide)) h
  | rBits w =>
    exact readerData_inv hs (fun hmore x _ hx hready hclosed => readField_inv (c := .bits w) hx hready hclosed
      (widthCheck_applies.mp ((firstFault_eq_none_iff _).mp hmore _ List.mem_cons_self))) h
  | rPeek w =>
    exact readerData_inv hs (fun hmore x _ hx hready hclosed => readField_inv (c := .peek w) hx hready hclosed
      (widthCheck_applies.mp ((firstFault_eq_none_iff _).mp hmore _ List.mem_cons_self))) h
  | rSkip w =>
    refine readerData_inv (eff := skipBits w) hs (fun hmore x hxr hx hready hclosed => ?_) h
    have hw : w ≤ 32 - x.r.offset := by simpa [firstFault_eq_none_iff, skipCheck, hxr] using hmore
    exact skipBits_inv hx hready hclosed hw
  | rReset =>
    refine readerLifecycle_inv (eff := dropBuffer) hs (fun _ x _ hx hidle hclosed => ?_) h
    exact inv_respondOk.mpr
      (hx.setR (.of_idle (by simp) (by simp) (fun _ => rfl) hidle) (.of_closed hclosed hidle))
  | rInner =>
    refine readerLifecycle_inv (eff := exposeSource) hs (fun hpass x hxr hx hidle _ => ?_) h
    have hatt : x.r.attached = true := by simpa [notAttachedCheck, hxr] using hpass
    exact inv_respondOk.mpr (hx.setSource ⟨fun hb => absurd hidle hb, fun _ => hatt⟩)
  | rUnwrap =>
    refine readerLifecycle_inv (eff := detachReader) hs (fun _ x _ hx hidle hclosed => ?_) h
    exact inv_respondOk.mpr
      (hx.setR ⟨hx.offsetRange, by simp [hidle], hx.poisonOnlyInPoisonMode⟩ (.of_closed hclosed hidle))

/-- An illegal word only raises its fault, or is answered with the latched one (R63, R155). -/
theorem illegalWord_inv {u : Option UnitId} {s t : State} (hs : s.Inv) (h : illegalWord u s = .next t) : t.Inv := by
  cases u with
  | some u => exact hs.commandTo (fun _ _ _ hx => hx) h
  | none =>
    cases h
    unfold afterChecks
    split
    · exact inv_respondFault.mpr hs
    · exact hs.raiseFault none .illegalCommand

/-! ### Inputs and steps -/

/-- The host may use the sink only while the writer does not wait for it (R137). -/
theorem hostMayUseSink_idle {s : State} (hs : s.Inv) (h : hostMayUseSink s = true) : s.w.busy = none := by
  by_contra hb
  obtain ⟨p, hp⟩ := Option.ne_none_iff_exists'.mp hb
  obtain ⟨hatt, -, -, hexp, -⟩ := hs.writerWaits p hp
  simp [hostMayUseSink, hatt, hexp] at h

/-- The host may use the source only while the reader does not wait for it (R137). -/
theorem hostMayUseSource_idle {s : State} (hs : s.Inv) (h : hostMayUseSource s = true) : s.r.busy = none := by
  by_contra hb
  obtain ⟨c, hc⟩ := Option.ne_none_iff_exists'.mp hb
  obtain ⟨hatt, -, -, hexp, -⟩ := hs.readerWaits c hc
  simp [hostMayUseSource, hatt, hexp] at h

theorem WriterUnit.powerOn_inv (fault : Byte) : WriterUnit.powerOn.Inv fault :=
  .of_idle (by decide) (by decide) rfl

theorem ReaderUnit.powerOn_inv (config : Config) : ReaderUnit.powerOn.Inv config :=
  .of_idle (by decide) (by decide) (fun _ => rfl) rfl

/-- A power-on reset leads to the invariant from any state (R34, R170). -/
theorem powerOnReset_inv (s : State) : (powerOnReset s).Inv :=
  State.inv_iff.mpr ⟨WriterUnit.powerOn_inv _, .of_closed rfl rfl, ReaderUnit.powerOn_inv _, .of_closed rfl rfl,
    Nat.zero_le 8⟩

/-- Every input keeps the invariant. -/
theorem takeInput_inv {x : Input} {s t : State} (hs : s.Inv) (h : takeInput x s = .next t) : t.Inv := by
  obtain ⟨hw, hsink, hr, hsource, hcode⟩ := State.inv_iff.mp hs
  cases x with
  | command word =>
    change issueWord word s = .next t at h
    unfold issueWord at h
    split at h
    · exact exec_inv hs h
    · exact illegalWord_inv hs h
  | sinkAnswer a =>
    cases h
    exact pumpWriter_inv hw (fun hb => (hsink.waits hb).2) hsink.exposed hr hsource hcode
  | sourceAnswer a =>
    cases h
    exact pumpReader_inv hr (fun hb => (hsource.waits hb).2) hsource.exposed hw hsink hcode
  | hostSink y =>
    obtain ⟨hmay, ⟨-, rfl⟩ | ⟨a, rest, -, rfl⟩⟩ := hostUsesSink_cases h
    · exact inv_setInputs.mpr hs
    · exact hs.setSink ⟨fun hb => absurd (hostMayUseSink_idle hs hmay) hb, hsink.exposed⟩
  | hostSource =>
    obtain ⟨hmay, ⟨-, rfl⟩ | ⟨a, rest, -, rfl⟩⟩ := hostUsesSource_cases h
    · exact inv_setInputs.mpr hs
    · exact hs.setSource ⟨fun hb => absurd (hostMayUseSource_idle hs hmay) hb, hsource.exposed⟩
  | connectSink as =>
    obtain ⟨hfree, rfl⟩ := connectSink_next h
    exact hs.setSink (.of_closed rfl (hostMayUseSink_idle hs (by simp [hostMayUseSink, hfree])))
  | connectSource as =>
    obtain ⟨hfree, rfl⟩ := connectSource_next h
    exact hs.setSource (.of_closed rfl (hostMayUseSource_idle hs (by simp [hostMayUseSource, hfree])))
  | powerOn =>
    cases h
    exact powerOnReset_inv s

/-- Settles O58: each input of the outside world keeps the invariant of the unit and port it reaches, and a latched fault
only asks for less of the writer. -/
theorem everyStepKeepsTheInvariant : Obligations.EveryStepKeepsTheInvariant := by
  unfold Obligations.EveryStepKeepsTheInvariant
  intro s t hs hstep
  cases hin : s.inputs with
  | nil =>
    cases (step_of_no_input hin).symm.trans hstep
    exact hs
  | cons x rest => exact takeInput_inv (inv_setInputs.mpr hs) ((step_of_input hin).symm.trans hstep)

/-- Settles O57: the state after reset is that of a power-on reset of itself, which has the invariant. -/
theorem invariantHoldsAfterReset : Obligations.InvariantHoldsAfterReset := by
  unfold Obligations.InvariantHoldsAfterReset
  exact fun c => powerOnReset_inv (State.resetWith c)

end Sys2Proof.Machine
end

section
/-! What a command depends on and what it leaves alone (R35): O48, O49, O50; and the creation values of R34: O1. -/

namespace Sys2Proof.Machine

open Sys2Proof

/-! ### Pairs of states that one unit cannot tell apart -/

/-- `t` and `t'` agree on everything a command of `u` may read, and have given the same responses after `rs` and
`rs'` (R35). The reader alone reads the parameters (R112). -/
structure Alike (u : UnitId) (rs rs' : List Response) (t t' : State) : Prop where
  side : match u with
    | .writer => t.w = t'.w ∧ t.sink = t'.sink
    | .reader => t.r = t'.r ∧ t.source = t'.source ∧ t.config = t'.config
  fault : t.fault = t'.fault
  responses : ∃ new, t.responses = rs ++ new ∧ t'.responses = rs' ++ new

/-- As `Alike`, of two outcomes. -/
def OutcomesAlike (u : UnitId) (rs rs' : List Response) : Result → Result → Prop
  | .next t, .next t' => Alike u rs rs' t t'
  | .refused a, .refused b => a = b
  | _, _ => False

/-- Alike outcomes are next states that are alike, or the same refusal. -/
theorem OutcomesAlike.cases {u : UnitId} {rs rs' : List Response} {x x' : Result} (h : OutcomesAlike u rs rs' x x') :
    (∃ t t', x = .next t ∧ x' = .next t' ∧ Alike u rs rs' t t') ∨ ∃ a, x = .refused a ∧ x' = .refused a := by
  cases x with
  | next t =>
    cases x' with
    | next t' => exact .inl ⟨t, t', rfl, rfl, h⟩
    | fault c => exact h.elim
    | refused b => exact h.elim
  | fault c => cases c
  | refused a =>
    cases x' with
    | next t' => exact h.elim
    | fault c => exact h.elim
    | refused b =>
      cases h
      exact .inr ⟨a, rfl, rfl⟩

/-- An operation that takes states alike for `u` to states alike for `u`. -/
def ReadsOnlyUnit (u : UnitId) (eff : State → State) : Prop :=
  ∀ ⦃rs rs' t t'⦄, Alike u rs rs' t t' → Alike u rs rs' (eff t) (eff t')

section
variable {u : UnitId} {rs rs' : List Response} {t t' : State}

theorem Alike.pushResponse (h : Alike u rs rs' t t') (x : Response) :
    Alike u rs rs' (t.pushResponse x) (t'.pushResponse x) := by
  obtain ⟨new, hnew, hnew'⟩ := h.responses
  exact ⟨h.side, h.fault, new ++ [x], by simp [hnew], by simp [hnew']⟩

theorem Alike.setFault (h : Alike u rs rs' t t') (x : Byte) : Alike u rs rs' (t.setFault x) (t'.setFault x) :=
  ⟨h.side, rfl, h.responses⟩

theorem Alike.setW (h : Alike .writer rs rs' t t') (x : WriterUnit) : Alike .writer rs rs' (t.setW x) (t'.setW x) :=
  ⟨⟨rfl, h.side.2⟩, h.fault, h.responses⟩

theorem Alike.setSink (h : Alike .writer rs rs' t t') (x : SinkPort) :
    Alike .writer rs rs' (t.setSink x) (t'.setSink x) :=
  ⟨⟨h.side.1, rfl⟩, h.fault, h.responses⟩

theorem Alike.setR (h : Alike .reader rs rs' t t') (x : ReaderUnit) : Alike .reader rs rs' (t.setR x) (t'.setR x) :=
  ⟨⟨rfl, h.side.2⟩, h.fault, h.responses⟩

theorem Alike.setSource (h : Alike .reader rs rs' t t') (x : SourcePort) :
    Alike .reader rs rs' (t.setSource x) (t'.setSource x) :=
  ⟨⟨h.side.1, rfl, h.side.2.2⟩, h.fault, h.responses⟩

theorem Alike.w_eq (h : Alike .writer rs rs' t t') : t.w = t'.w := h.side.1
theorem Alike.sink_eq (h : Alike .writer rs rs' t t') : t.sink = t'.sink := h.side.2
theorem Alike.r_eq (h : Alike .reader rs rs' t t') : t.r = t'.r := h.side.1
theorem Alike.source_eq (h : Alike .reader rs rs' t t') : t.source = t'.source := h.side.2.1
theorem Alike.config_eq (h : Alike .reader rs rs' t t') : t.config = t'.config := h.side.2.2

theorem Alike.respondFault (h : Alike u rs rs' t t') (v : Option UnitId) :
    Alike u rs rs' (respondFault v t) (respondFault v t') := by
  unfold Machine.respondFault
  rw [h.fault]
  exact h.pushResponse _

theorem Alike.closeInterval (h : Alike u rs rs' t t') : Alike u rs rs' (closeInterval u t) (closeInterval u t') := by
  cases u with
  | writer =>
    unfold Machine.closeInterval
    rw [h.sink_eq]
    exact h.setSink _
  | reader =>
    unfold Machine.closeInterval
    rw [h.source_eq]
    exact h.setSource _

theorem Alike.unitIsBusy_eq (h : Alike u rs rs' t t') : unitIsBusy u t = unitIsBusy u t' := by
  cases u with
  | writer => simp [unitIsBusy, h.w_eq]
  | reader => simp [unitIsBusy, h.r_eq]

theorem Alike.recordSink (h : Alike .writer rs rs' t t') (by_ : Issuer) (x : SinkTxn) (a : SinkAnswer) :
    Alike .writer rs rs' (recordSink by_ x a t) (recordSink by_ x a t') := by
  unfold Machine.recordSink
  rw [h.sink_eq]
  exact h.setSink _

theorem Alike.setSinkAnswers (h : Alike .writer rs rs' t t') (as : List SinkAnswer) :
    Alike .writer rs rs' (setSinkAnswers as t) (setSinkAnswers as t') := by
  unfold Machine.setSinkAnswers
  rw [h.sink_eq]
  exact h.setSink _

theorem Alike.recordSource (h : Alike .reader rs rs' t t') (by_ : Issuer) (a : SourceAnswer) :
    Alike .reader rs rs' (recordSource by_ a t) (recordSource by_ a t') := by
  unfold Machine.recordSource
  rw [h.source_eq]
  exact h.setSource _

theorem Alike.setSourceAnswers (h : Alike .reader rs rs' t t') (as : List SourceAnswer) :
    Alike .reader rs rs' (setSourceAnswers as t) (setSourceAnswers as t') := by
  unfold Machine.setSourceAnswers
  rw [h.source_eq]
  exact h.setSource _

/-- A command whose checks and effect depend on its own unit only does so as a whole. -/
theorem Alike.commandTo {checks checks' : List Check} {eff : State → State} (h : Alike u rs rs' t t')
    (hchecks : checks = checks') (heff : ReadsOnlyUnit u eff) :
    OutcomesAlike u rs rs' (commandTo u checks eff t) (commandTo u checks' eff t') := by
  subst hchecks
  have hclosed := h.closeInterval
  cases hbusy : unitIsBusy u t with
  | true =>
    rw [commandTo_busy hbusy, commandTo_busy (h.unitIsBusy_eq ▸ hbusy)]
    exact rfl
  | false =>
    rw [commandTo_idle hbusy, commandTo_idle (h.unitIsBusy_eq ▸ hbusy)]
    unfold afterChecks
    rw [hclosed.fault]
    split
    · exact hclosed.respondFault _
    · cases firstFault checks with
      | some c => exact (hclosed.setFault c.code).respondFault _
      | none => exact heff hclosed

end

/-! ### The effects of the writer's commands -/

theorem attachWriter_readsOnlyUnit : ReadsOnlyUnit .writer attachWriter :=
  fun _ _ _ _ h => (h.setW _).pushResponse _

theorem detachWriter_readsOnlyUnit : ReadsOnlyUnit .writer detachWriter := fun _ _ _ _ h => by
  unfold detachWriter
  rw [h.w_eq]
  exact (h.setW _).pushResponse _

theorem exposeSink_readsOnlyUnit : ReadsOnlyUnit .writer exposeSink := fun _ _ _ _ h => by
  unfold exposeSink
  rw [h.sink_eq]
  exact (h.setSink _).pushResponse _

theorem writerOk_readsOnlyUnit (p : WriterWait) : ReadsOnlyUnit .writer (writerOk p) := fun _ _ _ _ h => by
  unfold writerOk
  rw [h.w_eq]
  cases p with
  | emission => exact (h.setW _).pushResponse _
  | drain => exact h.setW _
  | flush => exact (h.setW _).pushResponse _

theorem writerError_readsOnlyUnit : ReadsOnlyUnit .writer writerError := fun _ _ _ _ h => by
  unfold writerError
  rw [h.w_eq]
  exact (h.setW _).pushResponse _

theorem endWriterFaulted_readsOnlyUnit : ReadsOnlyUnit .writer endWriterFaulted := fun _ _ _ _ h => by
  unfold endWriterFaulted
  rw [h.w_eq]
  exact (h.setW _).respondFault _

theorem writerAnswered_readsOnlyUnit (p : WriterWait) (a : SinkAnswer) :
    ReadsOnlyUnit .writer (writerAnswered p a) := fun _ _ t _ h => by
  have hrecorded := h.recordSink .unit (p.request t.w) a
  by_cases hf : t.fault = 0#8
  · rw [writerAnswered_clear hf, writerAnswered_clear (h.fault ▸ hf), ← h.w_eq]
    cases a with
    | ok => exact writerOk_readsOnlyUnit p hrecorded
    | ioError kept => exact writerError_readsOnlyUnit hrecorded
  · rw [writerAnswered_faulted hf, writerAnswered_faulted (h.fault ▸ hf), ← h.w_eq]
    exact endWriterFaulted_readsOnlyUnit hrecorded

theorem pumpWriter_readsOnlyUnit (as : List SinkAnswer) : ReadsOnlyUnit .writer (pumpWriter as) := by
  intro rs rs' t t' h
  induction as generalizing t t' with
  | nil => exact h.setSinkAnswers []
  | cons a as ih =>
    cases hb : t.w.busy with
    | none =>
      rw [pumpWriter_idle hb, pumpWriter_idle (h.w_eq ▸ hb)]
      exact h.setSinkAnswers _
    | some p =>
      rw [pumpWriter_cons hb, pumpWriter_cons (h.w_eq ▸ hb)]
      exact ih (writerAnswered_readsOnlyUnit p a h)

theorem runWriter_readsOnlyUnit : ReadsOnlyUnit .writer runWriter := fun _ _ _ _ h => by
  unfold runWriter
  rw [h.sink_eq]
  exact pumpWriter_readsOnlyUnit _ h

theorem writeField_readsOnlyUnit (w : Nat) (v : Half) : ReadsOnlyUnit .writer (writeField w v) := fun _ _ _ _ h => by
  unfold writeField
  rw [h.w_eq]
  dsimp only
  split
  · exact runWriter_readsOnlyUnit (h.setW _)
  · exact (h.setW _).pushResponse _

theorem drainAndFlush_readsOnlyUnit : ReadsOnlyUnit .writer drainAndFlush := fun _ _ _ _ h => by
  unfold drainAndFlush
  rw [h.w_eq]
  exact runWriter_readsOnlyUnit (h.setW _)

/-! ### The effects of the reader's commands -/

theorem attachReader_readsOnlyUnit : ReadsOnlyUnit .reader attachReader :=
  fun _ _ _ _ h => (h.setR _).pushResponse _

theorem detachReader_readsOnlyUnit : ReadsOnlyUnit .reader detachReader := fun _ _ _ _ h => by
  unfold detachReader
  rw [h.r_eq]
  exact (h.setR _).pushResponse _

theorem exposeSource_readsOnlyUnit : ReadsOnlyUnit .reader exposeSource := fun _ _ _ _ h => by
  unfold exposeSource
  rw [h.source_eq]
  exact (h.setSource _).pushResponse _

theorem skipBits_readsOnlyUnit (w : Nat) : ReadsOnlyUnit .reader (skipBits w) := fun _ _ _ _ h => by
  unfold skipBits
  rw [h.r_eq]
  exact (h.setR _).pushResponse _

theorem dropBuffer_readsOnlyUnit : ReadsOnlyUnit .reader dropBuffer := fun _ _ _ _ h => by
  unfold dropBuffer
  rw [h.r_eq]
  exact (h.setR _).pushResponse _

theorem peekLoop_readsOnlyUnit (c : ReadCmd) : ReadsOnlyUnit .reader (peekLoop c) := fun _ _ _ _ h => by
  unfold peekLoop beginFill finishRead
  rw [h.r_eq]
  split
  · exact h.setR _
  · exact (h.setR _).pushResponse _

/-- Whether a failed fill poisons is the one thing a reader takes from the parameters (R112). -/
theorem failFill_readsOnlyUnit : ReadsOnlyUnit .reader failFill := fun _ _ _ _ h => by
  unfold failFill
  rw [h.r_eq, h.config_eq]
  exact h.setR _

theorem endReaderFaulted_readsOnlyUnit : ReadsOnlyUnit .reader endReaderFaulted := fun _ _ _ _ h => by
  unfold endReaderFaulted
  rw [h.r_eq]
  exact (h.setR _).respondFault _

theorem readerAnswered_readsOnlyUnit (c : ReadCmd) (a : SourceAnswer) :
    ReadsOnlyUnit .reader (readerAnswered c a) := fun _ _ t _ h => by
  have hrecorded := h.recordSource .unit a
  by_cases hf : t.fault = 0#8
  · rw [readerAnswered_clear hf, readerAnswered_clear (h.fault ▸ hf), h.r_eq]
    cases a with
    | byte b => exact peekLoop_readsOnlyUnit c (hrecorded.setR _)
    | endOfStream => exact (failFill_readsOnlyUnit hrecorded).pushResponse _
    | ioError => exact (failFill_readsOnlyUnit hrecorded).pushResponse _
  · rw [readerAnswered_faulted hf, readerAnswered_faulted (h.fault ▸ hf)]
    exact endReaderFaulted_readsOnlyUnit hrecorded

theorem pumpReader_readsOnlyUnit (as : List SourceAnswer) : ReadsOnlyUnit .reader (pumpReader as) := by
  intro rs rs' t t' h
  induction as generalizing t t' with
  | nil => exact h.setSourceAnswers []
  | cons a as ih =>
    cases hb : t.r.busy with
    | none =>
      rw [pumpReader_idle hb, pumpReader_idle (h.r_eq ▸ hb)]
      exact h.setSourceAnswers _
    | some c =>
      rw [pumpReader_cons hb, pumpReader_cons (h.r_eq ▸ hb)]
      exact ih (readerAnswered_readsOnlyUnit c a h)

theorem readField_readsOnlyUnit (c : ReadCmd) : ReadsOnlyUnit .reader (readField c) := fun _ _ _ _ h => by
  have hpeek := peekLoop_readsOnlyUnit c h
  unfold readField runReader
  rw [hpeek.source_eq]
  exact pumpReader_readsOnlyUnit _ hpeek

/-! ### Commands -/

theorem readerDataChecks_congr {rs rs' : List Response} {s s' : State} (h : Alike .reader rs rs' s s') :
    readerDataChecks s = readerDataChecks s' := by
  unfold readerDataChecks readerPoisonedNow
  rw [h.r_eq, h.config_eq]

theorem writerDataChecks_congr {rs rs' : List Response} {s s' : State} (h : Alike .writer rs rs' s s') :
    writerDataChecks s = writerDataChecks s' := by
  unfold writerDataChecks
  rw [h.w_eq]

/-- A command depends on its own unit and stream, `FAULT`, and for the reader the parameters (R35). -/
theorem exec_outcomesAlike {rs rs' : List Response} {s s' : State} (i : Instr) (h : Alike i.unit rs rs' s s') :
    OutcomesAlike i.unit rs rs' (exec i s) (exec i s') := by
  cases i with
  | wNew => exact h.commandTo (by rw [h.w_eq]) attachWriter_readsOnlyUnit
  | wBit b => exact h.commandTo (writerDataChecks_congr h) (writeField_readsOnlyUnit 1 (bitValue b))
  | wBits w v => exact h.commandTo (by rw [writerDataChecks_congr h, h.w_eq]) (writeField_readsOnlyUnit w v)
  | wFlush => exact h.commandTo (writerDataChecks_congr h) drainAndFlush_readsOnlyUnit
  | wInner => exact h.commandTo (by rw [h.w_eq]) exposeSink_readsOnlyUnit
  | wUnwrap => exact h.commandTo (by rw [h.w_eq]) detachWriter_readsOnlyUnit
  | rNew => exact h.commandTo (by rw [h.r_eq]) attachReader_readsOnlyUnit
  | rBit => exact h.commandTo (readerDataChecks_congr h) (readField_readsOnlyUnit .bit)
  | rBits w => exact h.commandTo (by rw [readerDataChecks_congr h]) (readField_readsOnlyUnit (.bits w))
  | rPeek w => exact h.commandTo (by rw [readerDataChecks_congr h]) (readField_readsOnlyUnit (.peek w))
  | rSkip w => exact h.commandTo (by rw [readerDataChecks_congr h, h.r_eq]) (skipBits_readsOnlyUnit w)
  | rReset => exact h.commandTo (by rw [h.r_eq]) dropBuffer_readsOnlyUnit
  | rInner => exact h.commandTo (by rw [h.r_eq]) exposeSource_readsOnlyUnit
  | rUnwrap => exact h.commandTo (by rw [h.r_eq]) detachReader_readsOnlyUnit

/-- Settles O48: read off the frame of a command. -/
theorem commandsLeaveTheOtherUnitAlone : Obligations.CommandsLeaveTheOtherUnitAlone := by
  unfold Obligations.CommandsLeaveTheOtherUnitAlone
  intro i s t h
  obtain ⟨hconfig, hinputs, hother⟩ := exec_onlyUnitChanged h
  refine ⟨fun hu => ?_, fun hu => ?_, hconfig, hinputs⟩
  · rw [hu] at hother
    exact hother
  · rw [hu] at hother
    exact hother

/-- Settles O49: states that agree on the writer's side are alike for its commands. -/
theorem writerCommandsDoNotReadReaderState : Obligations.WriterCommandsDoNotReadReaderState := by
  unfold Obligations.WriterCommandsDoNotReadReaderState
  intro i s s' hu hw hsink hfault
  have houtcome := exec_outcomesAlike (rs := s.responses) (rs' := s'.responses) (s := s) (s' := s') i
    (by rw [hu]; exact ⟨⟨hw, hsink⟩, hfault, [], by simp, by simp⟩)
  rw [hu] at houtcome
  obtain ⟨t, t', ht, ht', h⟩ | ⟨a, ha, ha'⟩ := houtcome.cases
  · rw [ht, ht']
    exact ⟨h.w_eq, h.sink_eq, h.fault, h.responses⟩
  · rw [ha, ha']

/-- Settles O50: states that agree on the reader's side and the parameters are alike for its commands. -/
theorem readerCommandsDoNotReadWriterState : Obligations.ReaderCommandsDoNotReadWriterState := by
  unfold Obligations.ReaderCommandsDoNotReadWriterState
  intro i s s' hu hr hsource hfault hconfig
  have houtcome := exec_outcomesAlike (rs := s.responses) (rs' := s'.responses) (s := s) (s' := s') i
    (by rw [hu]; exact ⟨⟨hr, hsource, hconfig⟩, hfault, [], by simp, by simp⟩)
  rw [hu] at houtcome
  obtain ⟨t, t', ht, ht', h⟩ | ⟨a, ha, ha'⟩ := houtcome.cases
  · rw [ht, ht']
    exact ⟨h.r_eq, h.source_eq, h.fault, h.responses⟩
  · rw [ha, ha']

/-- Settles O1: the power-on values stand in the reset state as R34 lists them; NEW on an idle, detached unit passes its
check and writes every element of the unit. -/
theorem resetAndCreationValues : Obligations.ResetAndCreationValues := by
  unfold Obligations.ResetAndCreationValues
  refine ⟨fun c => ⟨rfl, rfl, rfl, rfl, rfl, rfl, rfl, rfl, rfl⟩, fun s hfault hidle hfree => ?_,
    fun s hfault hidle hfree => ?_⟩
  · have hpass : firstFault [alreadyAttachedCheck s.w.attached] = none := by
      simp [firstFault, alreadyAttachedCheck, hfree]
    have hexec : exec .wNew s = .next (attachWriter (closeInterval .writer s)) :=
      commandTo_pass (by simp [unitIsBusy, hidle]) hfault hpass
    exact ⟨_, hexec, rfl, rfl, rfl, rfl, rfl⟩
  · have hpass : firstFault [alreadyAttachedCheck s.r.attached] = none := by
      simp [firstFault, alreadyAttachedCheck, hfree]
    have hexec : exec .rNew s = .next (attachReader (closeInterval .reader s)) :=
      commandTo_pass (by simp [unitIsBusy, hidle]) hfault hpass
    exact ⟨_, hexec, rfl, rfl, rfl, rfl, rfl⟩

end Sys2Proof.Machine
end

section
/-! What is left of a step while a fault is latched (R155, R159, log 8), and O14. -/

namespace Sys2Proof.Machine

open Sys2Proof

/-! ### No progress -/

/-- From `s` to `t` the block makes no progress: `FAULT` and the registers stand, where a command in flight may end, and
every response is FAULT with the latched code (R155, R159). -/
structure NoProgress (s t : State) : Prop where
  fault : t.fault = s.fault
  writer : t.w = s.w ∨ t.w = { s.w with busy := none }
  reader : t.r = s.r ∨ t.r = { s.r with busy := none }
  responses : ∃ new, t.responses = s.responses ++ new ∧
    ∀ x ∈ new, x.word = 0x03000000#32 ||| (s.fault.setWidth 32 <<< 16)

/-- At most one transaction is answered at the sink, and if it is the writer's, it is the one in flight, whose command is
then over (R159, R162). -/
def SinkLogStands (s t : State) : Prop :=
  ∃ new, t.sink.log = s.sink.log ++ new ∧ new.length ≤ 1 ∧
    ∀ x ∈ new, x.issuer = .unit → ∃ p, s.w.busy = some p ∧ t.w.busy = none ∧ x.txn = p.request s.w

/-- As `SinkLogStands`, for the source. -/
def SourceLogStands (s t : State) : Prop :=
  ∃ new, t.source.log = s.source.log ++ new ∧ new.length ≤ 1 ∧
    ∀ x ∈ new, x.issuer = .unit → s.r.busy ≠ none ∧ t.r.busy = none

theorem SinkLogStands.of_log_eq {s t : State} (h : t.sink.log = s.sink.log) : SinkLogStands s t :=
  ⟨[], by simpa using h, by simp, by simp⟩

theorem SourceLogStands.of_log_eq {s t : State} (h : t.source.log = s.source.log) : SourceLogStands s t :=
  ⟨[], by simpa using h, by simp, by simp⟩

theorem NoProgress.of_silent {s t : State} (hfault : t.fault = s.fault) (hw : t.w = s.w) (hr : t.r = s.r)
    (hresponses : t.responses = s.responses) : NoProgress s t :=
  ⟨hfault, .inl hw, .inl hr, [], by simpa using hresponses, by simp⟩

/-- The response word of a latched fault, its fields written out (R65, R155). -/
theorem responseWord_fault (code : Byte) :
    responseWord .fault code 0#16 = 0x03000000#32 ||| (code.setWidth 32 <<< 16) := by
  simp [responseWord, Status.code]

/-- A step that gives one response, of the latched fault, and ends at most a command. -/
theorem NoProgress.of_respondFault {s t : State} {u : Option UnitId} (hfault : t.fault = s.fault)
    (hw : t.w = s.w ∨ t.w = { s.w with busy := none }) (hr : t.r = s.r ∨ t.r = { s.r with busy := none })
    (hresponses : t.responses = s.responses ++ [{ unit := u, word := responseWord .fault s.fault 0#16 }]) :
    NoProgress s t :=
  ⟨hfault, hw, hr, _, hresponses, by simp [responseWord_fault]⟩

/-! ### The inputs -/

/-- A command to a block whose fault is latched is answered with it (R155, R156 step 1). -/
theorem commandTo_faulted {u : UnitId} {checks : List Check} {eff : State → State} {s t : State} (hf : s.fault ≠ 0#8)
    (h : commandTo u checks eff s = .next t) : t = respondFault (some u) (closeInterval u s) := by
  obtain ⟨-, ⟨-, ht⟩ | ⟨h0, -⟩ | ⟨h0, -⟩⟩ := commandTo_cases h
  · exact ht
  · exact absurd h0 hf
  · exact absurd h0 hf

/-- A command word to a block whose fault is latched is answered with it, and has no other effect but to end its unit's
interval (R155, R137). -/
theorem issueWord_faulted {word : Word} {s t : State} (hf : s.fault ≠ 0#8) (h : issueWord word s = .next t) :
    t = respondFault none s ∨ ∃ u, t = respondFault (some u) (closeInterval u s) := by
  unfold issueWord at h
  split at h
  next i _ =>
    obtain ⟨checks, eff, hexec⟩ := exec_eq_commandTo i s
    exact .inr ⟨i.unit, commandTo_faulted hf (hexec ▸ h)⟩
  next =>
    cases hu : selectUnit word with
    | some u =>
      rw [hu] at h
      exact .inr ⟨u, commandTo_faulted hf h⟩
    | none =>
      rw [hu] at h
      cases h
      exact .inl (if_pos hf)

/-- An answer of the sink ends the writer's command, if one is in flight (log 8). -/
theorem sinkAnswer_noProgress {a : SinkAnswer} {s : State} (hf : s.fault ≠ 0#8) :
    NoProgress s (pumpWriter (s.sink.answers ++ [a]) s) ∧
      SinkLogStands s (pumpWriter (s.sink.answers ++ [a]) s) := by
  cases hb : s.w.busy with
  | none =>
    rw [pumpWriter_idle hb]
    exact ⟨.of_silent rfl rfl rfl rfl, .of_log_eq rfl⟩
  | some p =>
    obtain ⟨b, rest, hanswers⟩ := List.exists_cons_of_ne_nil (show s.sink.answers ++ [a] ≠ [] by simp)
    rw [hanswers, pumpWriter_faulted hf hb]
    exact ⟨.of_respondFault rfl (.inr rfl) (.inl rfl) rfl, _, rfl, by simp, by simp [hb]⟩

/-- An answer of the source ends the reader's command, if one is in flight (log 8). -/
theorem sourceAnswer_noProgress {a : SourceAnswer} {s : State} (hf : s.fault ≠ 0#8) :
    NoProgress s (pumpReader (s.source.answers ++ [a]) s) ∧
      SourceLogStands s (pumpReader (s.source.answers ++ [a]) s) := by
  cases hb : s.r.busy with
  | none =>
    rw [pumpReader_idle hb]
    exact ⟨.of_silent rfl rfl rfl rfl, .of_log_eq rfl⟩
  | some c =>
    obtain ⟨b, rest, hanswers⟩ := List.exists_cons_of_ne_nil (show s.source.answers ++ [a] ≠ [] by simp)
    rw [hanswers, pumpReader_faulted hf hb]
    exact ⟨.of_respondFault rfl (.inl rfl) (.inr rfl) rfl, _, rfl, by simp, by simp [hb]⟩

/-- While a fault is latched no input but a power-on reset makes progress (R159). -/
theorem takeInput_noProgress {x : Input} {s t : State} (hf : s.fault ≠ 0#8) (hx : x ≠ .powerOn)
    (h : takeInput x s = .next t) :
    NoProgress s t ∧ ((∀ as, x ≠ .connectSink as) → SinkLogStands s t) ∧
      ((∀ as, x ≠ .connectSource as) → SourceLogStands s t) := by
  cases x with
  | command word =>
    obtain rfl | ⟨u, rfl⟩ := issueWord_faulted hf h
    · exact ⟨.of_respondFault rfl (.inl rfl) (.inl rfl) rfl, fun _ => .of_log_eq rfl, fun _ => .of_log_eq rfl⟩
    · cases u <;>
        exact ⟨.of_respondFault rfl (.inl rfl) (.inl rfl) rfl, fun _ => .of_log_eq rfl, fun _ => .of_log_eq rfl⟩
  | sinkAnswer a =>
    cases h
    obtain ⟨hstands, hlog⟩ := sinkAnswer_noProgress (a := a) hf
    obtain ⟨-, -, -, hsource, -⟩ := pumpWriter_frame (s.sink.answers ++ [a]) s
    rw [runWriter, setSinkAnswers_sink, pumpWriter_setSinkAnswers]
    exact ⟨hstands, fun _ => hlog, fun _ => .of_log_eq (by rw [hsource])⟩
  | sourceAnswer a =>
    cases h
    obtain ⟨hstands, hlog⟩ := sourceAnswer_noProgress (a := a) hf
    obtain ⟨-, -, -, hsink, -⟩ := pumpReader_frame (s.source.answers ++ [a]) s
    rw [runReader, setSourceAnswers_source, pumpReader_setSourceAnswers]
    exact ⟨hstands, fun _ => .of_log_eq (by rw [hsink]), fun _ => hlog⟩
  | hostSink y =>
    obtain ⟨-, ⟨-, rfl⟩ | ⟨a, rest, -, rfl⟩⟩ := hostUsesSink_cases h
    · exact ⟨.of_silent rfl rfl rfl rfl, fun _ => .of_log_eq rfl, fun _ => .of_log_eq rfl⟩
    · exact ⟨.of_silent rfl rfl rfl rfl, fun _ => ⟨_, rfl, by simp, by simp⟩, fun _ => .of_log_eq rfl⟩
  | hostSource =>
    obtain ⟨-, ⟨-, rfl⟩ | ⟨a, rest, -, rfl⟩⟩ := hostUsesSource_cases h
    · exact ⟨.of_silent rfl rfl rfl rfl, fun _ => .of_log_eq rfl, fun _ => .of_log_eq rfl⟩
    · exact ⟨.of_silent rfl rfl rfl rfl, fun _ => .of_log_eq rfl, fun _ => ⟨_, rfl, by simp, by simp⟩⟩
  | connectSink as =>
    obtain ⟨-, rfl⟩ := connectSink_next h
    exact ⟨.of_silent rfl rfl rfl rfl, fun hne => absurd rfl (hne as), fun _ => .of_log_eq rfl⟩
  | connectSource as =>
    obtain ⟨-, rfl⟩ := connectSource_next h
    exact ⟨.of_silent rfl rfl rfl rfl, fun _ => .of_log_eq rfl, fun hne => absurd rfl (hne as)⟩
  | powerOn => exact absurd rfl hx

/-- Settles O14: a word is answered with the latched fault, an answer ends the command in flight, and what else enters a
log is the host's own. -/
theorem onlyPowerOnClearsFault : Obligations.OnlyPowerOnClearsFault := by
  unfold Obligations.OnlyPowerOnClearsFault
  intro s t hstep hf hreset
  have key : NoProgress s t ∧ ((∀ as, s.inputs.head? ≠ some (.connectSink as)) → SinkLogStands s t) ∧
      ((∀ as, s.inputs.head? ≠ some (.connectSource as)) → SourceLogStands s t) := by
    cases hin : s.inputs with
    | nil =>
      cases (step_of_no_input hin).symm.trans hstep
      exact ⟨.of_silent rfl rfl rfl rfl, fun _ => .of_log_eq rfl, fun _ => .of_log_eq rfl⟩
    | cons x rest =>
      obtain ⟨hstands, hsink, hsource⟩ := takeInput_noProgress (s := s.setInputs rest) hf
        (by simpa [hin] using hreset) ((step_of_input hin).symm.trans hstep)
      exact ⟨⟨hstands.fault, hstands.writer, hstands.reader, hstands.responses⟩,
        fun hne => hsink (by simpa using hne), fun hne => hsource (by simpa using hne)⟩
  obtain ⟨hstands, hsink, hsource⟩ := key
  exact ⟨hstands.fault, hstands.writer, hstands.reader, hstands.responses, hsink, hsource⟩

end Sys2Proof.Machine
end

section
/-! Reads whose bytes come: the fills they make, the bits they return and the bits they keep, and O36. -/

namespace Sys2Proof.Machine

open Sys2Proof

/-! ### The bits of the reader's accumulator -/

/-- After a fill the accumulator holds its old bits 8 places lower and the byte at bits 31:24 (R101). -/
theorem filledAcc_getLsbD (acc : Word) (b : Byte) (k : Nat) :
    (filledAcc acc b).getLsbD k = (acc.getLsbD (8 + k) || (decide (24 ≤ k) && b.getLsbD (k - 24))) := by
  simp only [filledAcc, BitVec.getLsbD_or, BitVec.getLsbD_ushiftRight, BitVec.getLsbD_shiftLeft,
    BitVec.getLsbD_setWidth]
  congr 1
  by_cases hk : 24 ≤ k
  · by_cases hk' : k < 32
    · simp [hk, hk', show ¬ k < 24 by omega, show k - 24 < 32 by omega]
    · simp [hk', BitVec.getLsbD_of_ge b (k - 24) (by omega)]
  · simp [hk, show k < 24 by omega]

/-- A fill puts the bits of its byte after those buffered (R28, R101). -/
theorem bitsLsb_filledAcc (acc : Word) (b : Byte) {offset : Nat} (hlow : 8 ≤ offset) (hhigh : offset ≤ 32) :
    bitsLsb (32 - (offset - 8)) (filledAcc acc b >>> (offset - 8)) =
      bitsLsb (32 - offset) (acc >>> offset) ++ bitsLsb 8 b := by
  refine List.ext_getElem (by simp; omega) fun k hk _ => ?_
  rw [bitsLsb_length] at hk
  rw [List.getElem_append]
  simp only [bitsLsb, List.getElem_map, List.getElem_range, List.length_map, List.length_range,
    BitVec.getLsbD_ushiftRight, filledAcc_getLsbD]
  split
  next hold => simp [show ¬ 24 ≤ offset - 8 + k by omega, show 8 + (offset - 8 + k) = offset + k by omega]
  next hnew =>
    rw [BitVec.getLsbD_of_ge acc _ (by omega)]
    simp [show 24 ≤ offset - 8 + k by omega, show offset - 8 + k - 24 = k - (32 - offset) by omega]

/-- `Extract(w)` is the `w` bits from the offset on, and zeros (R104). -/
theorem extractField_getLsbD (acc : Word) (offset : Nat) {w : Nat} (hw : w ≤ 16) (k : Nat) :
    (extractField acc offset w).getLsbD k = (decide (k < w) && acc.getLsbD (offset + k)) := by
  simp only [extractField, BitVec.getLsbD_setWidth, BitVec.getLsbD_and, BitVec.getLsbD_ushiftRight,
    mask_getLsbD (show w ≤ 32 by omega)]
  by_cases hk : k < w
  · simp [hk, show k < 16 by omega]
  · simp [hk]

/-- The extracted field is the next bits of the buffer (R28, R104). -/
theorem bitsLsb_extractField (acc : Word) {offset w : Nat} (hw : w ≤ 16) (hbuffered : w ≤ 32 - offset) :
    bitsLsb w (extractField acc offset w) = (bitsLsb (32 - offset) (acc >>> offset)).take w := by
  refine List.ext_getElem (by simp [hbuffered]) fun k hk _ => ?_
  rw [bitsLsb_length] at hk
  simp [bitsLsb, extractField_getLsbD acc offset hw, hk]

/-- The extracted field is below `2^w` (R104). -/
theorem extractField_lt (acc : Word) (offset : Nat) {w : Nat} (hw : w ≤ 16) :
    (extractField acc offset w).toNat < 2 ^ w := by
  refine Nat.lt_pow_two_of_testBit _ fun k hk => ?_
  rw [BitVec.testBit_toNat, extractField_getLsbD acc offset hw]
  simp [hk]

/-- Advancing the offset drops bits from the front of the buffer (R28). -/
theorem bitsLsb_advance (acc : Word) (offset n : Nat) :
    bitsLsb (32 - (offset + n)) (acc >>> (offset + n)) = (bitsLsb (32 - offset) (acc >>> offset)).drop n := by
  refine List.ext_getElem (by simp; omega) fun k _ _ => ?_
  simp [bitsLsb, Nat.add_assoc]

/-! ### Fills -/

/-- The reader after the fills of these bytes. -/
def ReaderUnit.afterFills (r : ReaderUnit) (bytes : List Byte) : ReaderUnit :=
  { r with acc := bytes.foldl filledAcc r.acc, offset := r.offset - 8 * bytes.length }

/-- The state after the reader's fills of these bytes: the reader, and the entries of the source's log. -/
def State.afterFills (s : State) (bytes : List Byte) : State :=
  { s with
    r := s.r.afterFills bytes
    source := { s.source with
      log := s.source.log ++ bytes.map (fun b => { issuer := .unit, answer := .byte b }) } }

/-- Fills put the bits of their bytes after those buffered, while the offset leaves room (R28, R101, R113). -/
theorem ReaderUnit.buffered_afterFills {r : ReaderUnit} {bytes : List Byte} (hroom : 8 * bytes.length ≤ r.offset)
    (hoffset : r.offset ≤ 32) : (r.afterFills bytes).buffered = r.buffered ++ streamBits bytes := by
  induction bytes generalizing r with
  | nil => simp [ReaderUnit.buffered, ReaderUnit.afterFills]
  | cons b bytes ih =>
    simp only [List.length_cons] at hroom
    have hlast : r.afterFills (b :: bytes) = (r.afterFills [b]).afterFills bytes := by
      simp [ReaderUnit.afterFills, Nat.sub_sub, Nat.mul_add, Nat.add_comm]
    have hfirst : (r.afterFills [b]).buffered = r.buffered ++ bitsLsb 8 b :=
      bitsLsb_filledAcc r.acc b (by omega) hoffset
    have hrest := ih (r := r.afterFills [b]) (by simp [ReaderUnit.afterFills]; omega)
      (by simp [ReaderUnit.afterFills]; omega)
    rw [hlast, hrest, hfirst, streamBits_cons, List.append_assoc]

/-- The bytes of fills are the reader's own (R113). -/
theorem State.fetched_afterFills (s : State) (bytes : List Byte) :
    (s.afterFills bytes).source.fetched = s.source.fetched ++ bytes := by
  have hbytes : ((bytes.map (fun b => SourceRecord.mk .unit (.byte b))).filter
      (fun x => x.issuer == .unit)).filterMap (fun x => x.answer.byte?) = bytes := by
    induction bytes with
    | nil => rfl
    | cons b bytes ih => simpa [SourceAnswer.byte?] using ih
  simp [SourcePort.fetched, State.afterFills, hbytes]

/-- A read whose bits are buffered is finished (R103). -/
theorem peekLoop_of_enough {c : ReadCmd} {s : State} (h : c.width ≤ 32 - s.r.offset) :
    peekLoop c s = finishRead c s := by
  simp only [peekLoop, Config.raccBits]
  exact if_neg (by omega)

/-- A read with fewer bits buffered than it needs begins a fill (R103). -/
theorem peekLoop_of_few {c : ReadCmd} {s : State} (h : 32 - s.r.offset < c.width) :
    peekLoop c s = beginFill c s := by
  simp only [peekLoop, Config.raccBits]
  exact if_pos h

/-- A read makes the fills it needs, one per byte, and finishes: it takes no byte more (R101, R103). -/
theorem pumpReader_fills {c : ReadCmd} {s : State} {bytes : List Byte} (rest : List SourceAnswer)
    (hf : s.fault = 0#8) (hwidth : c.width ≤ 16) (hoffset : s.r.offset ≤ 32)
    (hbytes : bytes.length = fillsNeeded s.r.offset c.width) :
    pumpReader (bytes.map SourceAnswer.byte ++ rest) (peekLoop c s) =
      setSourceAnswers rest (finishRead c (s.afterFills bytes)) := by
  unfold fillsNeeded at hbytes
  induction bytes generalizing s with
  | nil =>
    rw [peekLoop_of_enough (by simp at hbytes; omega)]
    simpa [State.afterFills, ReaderUnit.afterFills] using
      pumpReader_idle (s := finishRead c s) rfl rest
  | cons b bytes ih =>
    simp only [List.length_cons] at hbytes
    rw [peekLoop_of_few (by omega), List.map_cons, List.cons_append, pumpReader_cons (c := c) rfl,
      readerAnswered_clear (s := beginFill c s) hf]
    dsimp only
    rw [ih]
    · simp [State.afterFills, ReaderUnit.afterFills, finishRead, respondOk, State.setR, State.pushResponse,
        recordSource, State.setSource, beginFill, setSourceAnswers, insertByte, filledAcc, Nat.sub_sub, Nat.mul_add,
        Nat.add_comm]
    · exact hf
    · simp; omega
    · simp; omega

/-! ### Reads -/

/-- A read of a ready reader passes its checks and has its effect (R100, R105 to R107). -/
theorem exec_read_ready {c : ReadCmd} {s : State} (hready : ReaderReady s) (hwidth : c.width ≤ 16) :
    exec c.instr s = .next (readField c (closeInterval .reader s)) := by
  obtain ⟨hfault, hidle, hatt, hpoison⟩ := hready
  have hbusy : unitIsBusy .reader s = false := by simp [unitIsBusy, hidle]
  have hrange : firstFault [widthCheck c.width Config.rMaxWidth] = none := by
    simpa [firstFault_eq_none_iff, widthCheck_applies] using hwidth
  cases c with
  | bit => exact commandTo_pass hbusy hfault (readerDataChecks_pass (more := []) |>.mpr ⟨hatt, hpoison, rfl⟩)
  | bits w => exact commandTo_pass hbusy hfault (readerDataChecks_pass.mpr ⟨hatt, hpoison, hrange⟩)
  | peek w => exact commandTo_pass hbusy hfault (readerDataChecks_pass.mpr ⟨hatt, hpoison, hrange⟩)

/-- A read of a ready reader whose bytes come makes its fills and finishes (R101, R103). -/
theorem exec_read_fills {c : ReadCmd} {s : State} {bytes : List Byte} {rest : List SourceAnswer}
    (hready : ReaderReady s) (hwidth : c.width ≤ 16) (hoffset : s.r.offset ≤ 32)
    (hbytes : bytes.length = fillsNeeded s.r.offset c.width)
    (hanswers : s.source.answers = bytes.map SourceAnswer.byte ++ rest) :
    exec c.instr s =
      .next (setSourceAnswers rest (finishRead c ((closeInterval .reader s).afterFills bytes))) := by
  obtain ⟨hfault, -⟩ := id hready
  obtain ⟨-, -, -, -, hsource, -⟩ := peekLoop_frame c (closeInterval .reader s)
  rw [exec_read_ready hready hwidth, readField, runReader, hsource, closeInterval_reader_source]
  dsimp only
  rw [hanswers, pumpReader_fills (s := closeInterval .reader s) rest hfault hwidth hoffset hbytes]

/-- Settles O36: the fills append the fetched bits to the buffer, which then holds the field; the read takes it from the
front. -/
theorem readsReturnTheNextBits : Obligations.ReadsReturnTheNextBits := by
  unfold Obligations.ReadsReturnTheNextBits
  intro c s bytes rest hready hwidth hoffset hbytes hanswers
  have hneeded := hbytes
  unfold fillsNeeded at hneeded
  have hbuffered : (s.r.afterFills bytes).buffered = s.r.buffered ++ streamBits bytes :=
    ReaderUnit.buffered_afterFills (by omega) hoffset
  have henough : c.width ≤ 32 - (s.r.afterFills bytes).offset := by
    simp only [ReaderUnit.afterFills]
    omega
  refine ⟨_, extractField (s.r.afterFills bytes).acc (s.r.afterFills bytes).offset c.width,
    exec_read_fills hready hwidth hoffset hbytes hanswers, ?_, extractField_lt _ _ hwidth, rfl, ?_, rfl,
    State.fetched_afterFills (closeInterval .reader s) bytes, rfl⟩
  · rw [← hbuffered]
    exact bitsLsb_extractField _ hwidth henough
  · rw [← hbuffered]
    exact bitsLsb_advance _ _ _

end Sys2Proof.Machine
end

section
/-! What enters the logs of the streams: O28 and O53. -/

namespace Sys2Proof.Machine

open Sys2Proof

/-! ### The sink's log -/

/-- From `s` to `t` the sink's log grows by transactions of the writer, each the request of a wait in `Q` (R48, R51). -/
def SinkLogGrows (Q : WriterWait → Prop) (s t : State) : Prop :=
  ∃ new, t.sink.log = s.sink.log ++ new ∧
    ∀ x ∈ new, x.issuer = .unit ∧ ∃ p w, Q p ∧ x.txn = WriterWait.request p w

theorem SinkLogGrows.of_log_eq {Q : WriterWait → Prop} {s t : State} (h : t.sink.log = s.sink.log) :
    SinkLogGrows Q s t :=
  ⟨[], by simpa using h, by simp⟩

theorem SinkLogGrows.log_isPrefix {Q : WriterWait → Prop} {s t : State} (h : SinkLogGrows Q s t) :
    s.sink.log <+: t.sink.log := by
  obtain ⟨new, hlog, -⟩ := h
  exact ⟨new, hlog.symm⟩

/-- After an answer a command goes on only after a drained byte, and then with a byte or the flush (R83, R86). -/
theorem writerAnswered_busy {p q : WriterWait} {a : SinkAnswer} {s : State}
    (h : (writerAnswered p a s).w.busy = some q) : p = .drain ∧ q ≠ .emission := by
  by_cases hf : s.fault = 0#8
  · rw [writerAnswered_clear hf] at h
    cases a with
    | ioError kept => cases h
    | ok =>
      cases p with
      | emission => cases h
      | flush => cases h
      | drain =>
        cases h
        refine ⟨rfl, ?_⟩
        unfold nextDrain
        split <;> decide
  · rw [writerAnswered_faulted hf] at h
    cases h

/-- A pump logs the wait in flight and, after a drain, the rest of the flush (R83, R86). -/
theorem pumpWriter_sinkLogGrows {Q : WriterWait → Prop} (hdrain : Q .drain → ∀ q, q ≠ .emission → Q q) {s : State}
    (hbusy : ∀ p, s.w.busy = some p → Q p) (as : List SinkAnswer) : SinkLogGrows Q s (pumpWriter as s) := by
  refine (pumpWriter_induct (P := fun t => SinkLogGrows Q s t ∧ ∀ p, t.w.busy = some p → Q p)
    (fun as t h => h) (fun p a t hp h => ?_) as s ⟨.of_log_eq rfl, hbusy⟩).1
  obtain ⟨⟨new, hlog, hnew⟩, hQ⟩ := h
  obtain ⟨-, -, -, -, -, hsink⟩ := writerAnswered_frame p a t
  have hQp := hQ p hp
  refine ⟨⟨new ++ [{ issuer := .unit, txn := p.request t.w, answer := a }], by simp [hsink, hlog], fun x hx => ?_⟩,
    fun q hq => ?_⟩
  · obtain hx | rfl := by simpa using hx
    · exact hnew x hx
    · exact ⟨rfl, p, t.w, hQp, rfl⟩
  · obtain ⟨rfl, hne⟩ := writerAnswered_busy hq
    exact hdrain hQp q hne

/-- A write that reaches 16 bits runs its emission (R83). -/
theorem writeField_atThreshold {s : State} {w : Nat} {v : Half} (h : 16 ≤ s.w.filled + w) :
    writeField w v s = runWriter (s.setW { s.w with
      acc := appendField s.w.acc s.w.filled w v, filled := s.w.filled + w, busy := some .emission }) :=
  if_pos h

/-- W.BITS and W.BIT log emissions only (R83). -/
theorem writeField_sinkLogGrows (w : Nat) (v : Half) (s : State) :
    SinkLogGrows (· = .emission) s (writeField w v s) := by
  by_cases h : s.w.filled + w < 16
  · rw [writeField_below h]
    exact .of_log_eq rfl
  · rw [writeField_atThreshold (by omega)]
    exact pumpWriter_sinkLogGrows (s := s.setW _) (by simp) (by simp) s.sink.answers

/-- W.FLUSH logs byte writes and flush requests only (R86). -/
theorem drainAndFlush_sinkLogGrows (s : State) : SinkLogGrows (· ≠ .emission) s (drainAndFlush s) := by
  refine pumpWriter_sinkLogGrows (s := s.setW { s.w with busy := some (nextDrain s.w.filled) })
    (fun _ q hq => hq) (fun p hp => ?_) s.sink.answers
  cases hp
  unfold nextDrain
  split <;> decide

/-! ### The source's log -/

/-- From `s` to `t` the source's log grows by reads of the reader; where it grows at all, `reads` holds (R48, R51). -/
def SourceLogGrows (reads : Prop) (s t : State) : Prop :=
  ∃ new, t.source.log = s.source.log ++ new ∧ ∀ x ∈ new, x.issuer = .unit ∧ reads

theorem SourceLogGrows.of_log_eq {reads : Prop} {s t : State} (h : t.source.log = s.source.log) :
    SourceLogGrows reads s t :=
  ⟨[], by simpa using h, by simp⟩

theorem SourceLogGrows.log_isPrefix {reads : Prop} {s t : State} (h : SourceLogGrows reads s t) :
    s.source.log <+: t.source.log := by
  obtain ⟨new, hlog, -⟩ := h
  exact ⟨new, hlog.symm⟩

/-- A pump logs reads of the reader (R101). -/
theorem pumpReader_sourceLogGrows {reads : Prop} (hreads : reads) (as : List SourceAnswer) (s : State) :
    SourceLogGrows reads s (pumpReader as s) := by
  refine pumpReader_induct (P := SourceLogGrows reads s) (fun as t h => h) (fun c a t _ h => ?_) as s (.of_log_eq rfl)
  obtain ⟨new, hlog, hnew⟩ := h
  obtain ⟨-, -, -, -, -, -, hsource⟩ := readerAnswered_frame c a t
  refine ⟨new ++ [{ issuer := .unit, answer := a }], by simp [hsource, hlog], fun x hx => ?_⟩
  obtain hx | rfl := by simpa using hx
  · exact hnew x hx
  · exact ⟨rfl, hreads⟩

theorem readField_sourceLogGrows {reads : Prop} (hreads : reads) (c : ReadCmd) (s : State) :
    SourceLogGrows reads s (readField c s) := by
  obtain ⟨-, -, -, -, hsource, -⟩ := peekLoop_frame c s
  obtain ⟨new, hlog, hnew⟩ := pumpReader_sourceLogGrows hreads (peekLoop c s).source.answers (peekLoop c s)
  exact ⟨new, hsource ▸ hlog, hnew⟩

/-! ### Commands -/

/-- The waits a command of the writer goes through (R83, R86). -/
def issuesWait (i : Instr) (p : WriterWait) : Prop :=
  match i with
  | .wBit _ | .wBits _ _ => p = .emission
  | .wFlush => p ≠ .emission
  | _ => False

/-- A command logs at the sink what its effect does: a fault logs nothing (R155). -/
theorem commandTo_sinkLogGrows {Q : WriterWait → Prop} {checks : List Check} {eff : State → State} {s t : State}
    (heff : ∀ x, SinkLogGrows Q x (eff x)) (h : commandTo .writer checks eff s = .next t) : SinkLogGrows Q s t := by
  obtain ⟨-, ⟨-, rfl⟩ | ⟨-, c, -, rfl⟩ | ⟨-, -, rfl⟩⟩ := commandTo_cases h
  · exact .of_log_eq rfl
  · exact .of_log_eq rfl
  · exact heff (closeInterval .writer s)

/-- A command logs at the source what its effect does: a fault logs nothing (R155). -/
theorem commandTo_sourceLogGrows {reads : Prop} {checks : List Check} {eff : State → State} {s t : State}
    (heff : ∀ x, SourceLogGrows reads x (eff x)) (h : commandTo .reader checks eff s = .next t) :
    SourceLogGrows reads s t := by
  obtain ⟨-, ⟨-, rfl⟩ | ⟨-, c, -, rfl⟩ | ⟨-, -, rfl⟩⟩ := commandTo_cases h
  · exact .of_log_eq rfl
  · exact .of_log_eq rfl
  · exact heff (closeInterval .reader s)

/-- The transactions a command adds to the sink's log are those of its own waits (R48, R90). -/
theorem exec_sinkLogGrows {i : Instr} {s t : State} (h : exec i s = .next t) : SinkLogGrows (issuesWait i) s t := by
  obtain ⟨-, hreader, -⟩ := commandsLeaveTheOtherUnitAlone i s t h
  cases i with
  | wBit b => exact commandTo_sinkLogGrows (writeField_sinkLogGrows 1 (bitValue b)) h
  | wBits w v => exact commandTo_sinkLogGrows (writeField_sinkLogGrows w v) h
  | wFlush => exact commandTo_sinkLogGrows drainAndFlush_sinkLogGrows h
  | wNew => exact commandTo_sinkLogGrows (eff := attachWriter) (fun _ => .of_log_eq rfl) h
  | wInner => exact commandTo_sinkLogGrows (eff := exposeSink) (fun _ => .of_log_eq rfl) h
  | wUnwrap => exact commandTo_sinkLogGrows (eff := detachWriter) (fun _ => .of_log_eq rfl) h
  | rNew | rBit | rBits _ | rPeek _ | rSkip _ | rReset | rInner | rUnwrap =>
    obtain ⟨-, hsink⟩ := hreader rfl
    exact .of_log_eq (by rw [hsink])

/-- A command adds to the source's log reads of the reader, and only if it is a read itself (R48, R90). -/
theorem exec_sourceLogGrows {i : Instr} {s t : State} (h : exec i s = .next t) :
    SourceLogGrows (∃ c : ReadCmd, i = c.instr) s t := by
  obtain ⟨hwriter, -⟩ := commandsLeaveTheOtherUnitAlone i s t h
  cases i with
  | rBit => exact commandTo_sourceLogGrows (readField_sourceLogGrows ⟨.bit, rfl⟩ .bit) h
  | rBits w => exact commandTo_sourceLogGrows (readField_sourceLogGrows ⟨.bits w, rfl⟩ (.bits w)) h
  | rPeek w => exact commandTo_sourceLogGrows (readField_sourceLogGrows ⟨.peek w, rfl⟩ (.peek w)) h
  | rNew => exact commandTo_sourceLogGrows (eff := attachReader) (fun _ => .of_log_eq rfl) h
  | rSkip w => exact commandTo_sourceLogGrows (eff := skipBits w) (fun _ => .of_log_eq rfl) h
  | rReset => exact commandTo_sourceLogGrows (eff := dropBuffer) (fun _ => .of_log_eq rfl) h
  | rInner => exact commandTo_sourceLogGrows (eff := exposeSource) (fun _ => .of_log_eq rfl) h
  | rUnwrap => exact commandTo_sourceLogGrows (eff := detachReader) (fun _ => .of_log_eq rfl) h
  | wNew | wBit _ | wBits _ _ | wFlush | wInner | wUnwrap =>
    obtain ⟨-, hsource⟩ := hwriter rfl
    exact .of_log_eq (by rw [hsource])

/-- A 16-bit write is an emission's, of W.BIT or W.BITS (R48, R90). -/
theorem issuesWait_emission {i : Instr} (h : issuesWait i .emission) : (∃ b, i = .wBit b) ∨ ∃ w v, i = .wBits w v := by
  unfold issuesWait at h
  split at h
  next b => exact .inl ⟨b, rfl⟩
  next w v => exact .inr ⟨w, v, rfl⟩
  next => exact absurd rfl h
  next => exact h.elim

/-- A byte write and a flush request are W.FLUSH's (R48, R90). -/
theorem issuesWait_flush {i : Instr} {p : WriterWait} (h : issuesWait i p) (hp : p ≠ .emission) : i = .wFlush := by
  unfold issuesWait at h
  split at h
  next => exact absurd h hp
  next => exact absurd h hp
  next => rfl
  next => exact h.elim

/-- Settles O28: each new entry of the sink's log is the request of a wait of the command, and each of the source's log a
fill of the reader. -/
theorem onlyDataCommandsUseTheStreams : Obligations.OnlyDataCommandsUseTheStreams := by
  unfold Obligations.OnlyDataCommandsUseTheStreams
  intro i s t h
  obtain ⟨sinkNew, hsink, hsinkNew⟩ := exec_sinkLogGrows h
  obtain ⟨sourceNew, hsource, hsourceNew⟩ := exec_sourceLogGrows h
  refine ⟨⟨sinkNew, hsink, fun x hx => ?_⟩, ⟨sourceNew, hsource, fun x hx => ?_⟩⟩
  · obtain ⟨hunit, p, w, hp, htxn⟩ := hsinkNew x hx
    rw [htxn]
    cases p with
    | emission => exact ⟨hunit, issuesWait_emission hp⟩
    | drain => exact ⟨hunit, issuesWait_flush hp (by decide)⟩
    | flush => exact ⟨hunit, issuesWait_flush hp (by decide)⟩
  · obtain ⟨hunit, c, rfl⟩ := hsourceNew x hx
    cases c with
    | bit => exact ⟨hunit, .inl rfl⟩
    | bits w => exact ⟨hunit, .inr (.inl ⟨w, rfl⟩)⟩
    | peek w => exact ⟨hunit, .inr (.inr ⟨w, rfl⟩)⟩

/-! ### Steps -/

/-- A command word takes nothing out of a log (R51). -/
theorem issueWord_logs {word : Word} {s t : State} (h : issueWord word s = .next t) :
    s.sink.log <+: t.sink.log ∧ s.source.log <+: t.source.log := by
  unfold issueWord at h
  split at h
  next i _ => exact ⟨(exec_sinkLogGrows h).log_isPrefix, (exec_sourceLogGrows h).log_isPrefix⟩
  next =>
    cases hu : selectUnit word with
    | some u =>
      rw [hu] at h
      obtain ⟨-, ⟨-, rfl⟩ | ⟨-, c, -, rfl⟩ | ⟨-, -, rfl⟩⟩ := commandTo_cases h <;> cases u <;> simp
    | none =>
      rw [hu] at h
      cases h
      unfold afterChecks
      split <;> simp [firstFault]

/-- No input but the connection of another stream takes an entry out of a log (R41, R42, R170). -/
theorem takeInput_logs {x : Input} {s t : State} (h : takeInput x s = .next t) :
    ((∀ as, x ≠ .connectSink as) → s.sink.log <+: t.sink.log) ∧
      ((∀ as, x ≠ .connectSource as) → s.source.log <+: t.source.log) := by
  cases x with
  | command word =>
    obtain ⟨hsink, hsource⟩ := issueWord_logs h
    exact ⟨fun _ => hsink, fun _ => hsource⟩
  | sinkAnswer a =>
    cases h
    rw [runWriter, setSinkAnswers_sink, pumpWriter_setSinkAnswers]
    obtain ⟨-, -, -, hsource, -⟩ := pumpWriter_frame (s.sink.answers ++ [a]) s
    have hgrows : SinkLogGrows (fun _ => True) s (pumpWriter (s.sink.answers ++ [a]) s) :=
      pumpWriter_sinkLogGrows (fun _ _ _ => trivial) (fun _ _ => trivial) _
    exact ⟨fun _ => hgrows.log_isPrefix, fun _ => by rw [hsource]⟩
  | sourceAnswer a =>
    cases h
    rw [runReader, setSourceAnswers_source, pumpReader_setSourceAnswers]
    obtain ⟨-, -, -, hsink, -⟩ := pumpReader_frame (s.source.answers ++ [a]) s
    exact ⟨fun _ => by rw [hsink], fun _ => (pumpReader_sourceLogGrows trivial _ s).log_isPrefix⟩
  | hostSink y => obtain ⟨-, ⟨-, rfl⟩ | ⟨a, rest, -, rfl⟩⟩ := hostUsesSink_cases h <;> simp
  | hostSource => obtain ⟨-, ⟨-, rfl⟩ | ⟨a, rest, -, rfl⟩⟩ := hostUsesSource_cases h <;> simp
  | connectSink as =>
    obtain ⟨-, rfl⟩ := connectSink_next h
    exact ⟨fun hne => absurd rfl (hne as), fun _ => List.prefix_rfl⟩
  | connectSource as =>
    obtain ⟨-, rfl⟩ := connectSource_next h
    exact ⟨fun _ => List.prefix_rfl, fun hne => absurd rfl (hne as)⟩
  | powerOn =>
    cases h
    exact ⟨fun _ => List.prefix_rfl, fun _ => List.prefix_rfl⟩

/-- Settles O53: the logs only grow, and with them the bytes they accepted and took. -/
theorem streamsOnlyGoForward : Obligations.StreamsOnlyGoForward := by
  unfold Obligations.StreamsOnlyGoForward
  intro s t hstep
  cases hin : s.inputs with
  | nil =>
    cases (step_of_no_input hin).symm.trans hstep
    exact ⟨fun _ => List.prefix_rfl, fun _ => List.prefix_rfl⟩
  | cons x rest =>
    obtain ⟨hsink, hsource⟩ := takeInput_logs ((step_of_input hin).symm.trans hstep)
    exact ⟨fun hne => (hsink (by simpa using hne)).flatMap _,
      fun hne => (hsource (by simpa using hne)).filterMap _⟩

end Sys2Proof.Machine
end

section
/-! Answers that come late (R51, R162): O52. -/

namespace Sys2Proof.Machine

open Sys2Proof

/-- A command does not read the inputs to come (R14, R35). -/
theorem exec_setInputs {i : Instr} {s t : State} (xs : List Input) (h : exec i s = .next t) :
    exec i (s.setInputs xs) = .next (t.setInputs xs) := by
  have halike : Alike i.unit s.responses s.responses s (s.setInputs xs) :=
    ⟨by cases i.unit <;> simp, rfl, [], by simp, by simp⟩
  obtain ⟨t₁, t', ht, ht', hout⟩ | ⟨a, ha, -⟩ := (exec_outcomesAlike i halike).cases
  · cases h.symm.trans ht
    obtain ⟨new, hnew, hnew'⟩ := hout.responses
    have hframe := exec_onlyUnitChanged h
    have hframe' := exec_onlyUnitChanged ht'
    rw [ht']
    congr 1
    cases hu : i.unit with
    | writer =>
      rw [hu] at hframe hframe' hout
      obtain ⟨hconfig, -, hr, hsource⟩ := onlyUnitChanged_writer.mp hframe
      obtain ⟨hconfig', hinputs', hr', hsource'⟩ := onlyUnitChanged_writer.mp hframe'
      exact State.ext (hconfig'.trans hconfig.symm) hout.w_eq.symm (hr'.trans hr.symm) hout.fault.symm
        hout.sink_eq.symm (hsource'.trans hsource.symm) hinputs' (hnew'.trans hnew.symm)
    | reader =>
      rw [hu] at hframe hframe' hout
      obtain ⟨hconfig, -, hw, hsink⟩ := onlyUnitChanged_reader.mp hframe
      obtain ⟨hconfig', hinputs', hw', hsink'⟩ := onlyUnitChanged_reader.mp hframe'
      exact State.ext (hconfig'.trans hconfig.symm) (hw'.trans hw.symm) hout.r_eq.symm hout.fault.symm
        (hsink'.trans hsink.symm) hout.source_eq.symm hinputs' (hnew'.trans hnew.symm)
  · rw [h] at ha
    cases ha

/-! ### The writer -/

/-- An effect that leaves an idle writer waiting has used every answer ready, and given one more from the start it ends
where that answer resumes it (R162). -/
def WriterResumes (eff : State → State) : Prop :=
  ∀ (x : State) (a : SinkAnswer), x.w.busy = none → (eff x).w.busy ≠ none →
    (eff x).sink.answers = [] ∧ eff (setSinkAnswers (x.sink.answers ++ [a]) x) = pumpWriter [a] (eff x)

/-- An effect that does not leave an idle writer waiting. -/
theorem WriterResumes.of_idle {eff : State → State} (h : ∀ x : State, x.w.busy = none → (eff x).w.busy = none) :
    WriterResumes eff :=
  fun x _ hidle hwaits => absurd (h x hidle) hwaits

/-- One more answer prolongs a run left waiting (R162). -/
theorem runWriter_setW_resumes {x : State} {w : WriterUnit} (a : SinkAnswer)
    (h : (runWriter (x.setW w)).w.busy ≠ none) :
    (runWriter (x.setW w)).sink.answers = [] ∧
      runWriter ((setSinkAnswers (x.sink.answers ++ [a]) x).setW w) = pumpWriter [a] (runWriter (x.setW w)) := by
  refine ⟨pumpWriter_waits _ _ h, ?_⟩
  calc runWriter ((setSinkAnswers (x.sink.answers ++ [a]) x).setW w)
      = pumpWriter (x.sink.answers ++ [a]) (setSinkAnswers (x.sink.answers ++ [a]) (x.setW w)) := rfl
    _ = pumpWriter (x.sink.answers ++ [a]) (x.setW w) := pumpWriter_setSinkAnswers _ _ _
    _ = pumpWriter [a] (runWriter (x.setW w)) := (pumpWriter_append _ _ _ h).symm

theorem writeField_resumes (w : Nat) (v : Half) : WriterResumes (writeField w v) := by
  intro x a hidle hwaits
  by_cases hfew : x.w.filled + w < 16
  · rw [writeField_below hfew] at hwaits
    exact absurd hidle hwaits
  · have hmany : 16 ≤ x.w.filled + w := by omega
    rw [writeField_atThreshold hmany] at hwaits ⊢
    rw [writeField_atThreshold (s := setSinkAnswers (x.sink.answers ++ [a]) x) hmany]
    exact runWriter_setW_resumes a hwaits

theorem drainAndFlush_resumes : WriterResumes drainAndFlush :=
  fun _ a _ hwaits => runWriter_setW_resumes a hwaits

/-- A command left waiting passed its checks, and a further answer enters none of them (R156). -/
theorem commandTo_writer_resumes {checks : List Check} {eff : State → State} {s t : State} (a : SinkAnswer)
    (heff : WriterResumes eff) (h : commandTo .writer checks eff s = .next t) (hwaits : t.w.busy ≠ none) :
    t.sink.answers = [] ∧
      commandTo .writer checks eff (setSinkAnswers (s.sink.answers ++ [a]) s) = .next (pumpWriter [a] t) := by
  obtain ⟨hfree, hcase⟩ := commandTo_cases h
  have hidle : s.w.busy = none := by simpa [unitIsBusy] using hfree
  obtain ⟨-, rfl⟩ | ⟨-, c, -, rfl⟩ | ⟨hfault, hpass, rfl⟩ := hcase
  · exact absurd hidle hwaits
  · exact absurd hidle hwaits
  · obtain ⟨hused, hresumed⟩ := heff (closeInterval .writer s) a hidle hwaits
    refine ⟨hused, ?_⟩
    rw [← hresumed]
    exact commandTo_pass (s := setSinkAnswers _ s) hfree hfault hpass

/-- A writer command left waiting has used every answer ready, and given one more from the start it ends where that answer
resumes it (R162). -/
theorem exec_writer_resumes {i : Instr} {s t : State} (a : SinkAnswer) (hu : i.unit = .writer)
    (h : exec i s = .next t) (hwaits : t.w.busy ≠ none) :
    t.sink.answers = [] ∧ exec i (setSinkAnswers (s.sink.answers ++ [a]) s) = .next (pumpWriter [a] t) := by
  cases i with
  | wBit b => exact commandTo_writer_resumes a (writeField_resumes 1 (bitValue b)) h hwaits
  | wBits w v => exact commandTo_writer_resumes a (writeField_resumes w v) h hwaits
  | wFlush => exact commandTo_writer_resumes a drainAndFlush_resumes h hwaits
  | wNew => exact commandTo_writer_resumes (eff := attachWriter) a (.of_idle fun _ _ => rfl) h hwaits
  | wInner => exact commandTo_writer_resumes (eff := exposeSink) a (.of_idle fun _ hidle => hidle) h hwaits
  | wUnwrap => exact commandTo_writer_resumes (eff := detachWriter) a (.of_idle fun _ hidle => hidle) h hwaits
  | rNew | rBit | rBits _ | rPeek _ | rSkip _ | rReset | rInner | rUnwrap => cases hu

/-! ### The reader -/

/-- As `WriterResumes`, for the reader and its source. -/
def ReaderResumes (eff : State → State) : Prop :=
  ∀ (x : State) (a : SourceAnswer), x.r.busy = none → (eff x).r.busy ≠ none →
    (eff x).source.answers = [] ∧ eff (setSourceAnswers (x.source.answers ++ [a]) x) = pumpReader [a] (eff x)

/-- An effect that does not leave an idle reader waiting. -/
theorem ReaderResumes.of_idle {eff : State → State} (h : ∀ x : State, x.r.busy = none → (eff x).r.busy = none) :
    ReaderResumes eff :=
  fun x _ hidle hwaits => absurd (h x hidle) hwaits

/-- The head of Peek's loop does not look at the answers (R103). -/
theorem peekLoop_setSourceAnswers (c : ReadCmd) (xs : List SourceAnswer) (s : State) :
    peekLoop c (setSourceAnswers xs s) = setSourceAnswers xs (peekLoop c s) := by
  by_cases hfew : 32 - s.r.offset < c.width
  · rw [peekLoop_of_few hfew, peekLoop_of_few (s := setSourceAnswers xs s) hfew]
    rfl
  · have henough : c.width ≤ 32 - s.r.offset := by omega
    rw [peekLoop_of_enough henough, peekLoop_of_enough (s := setSourceAnswers xs s) henough]
    rfl

/-- A read is Peek's loop run on the answers the source has ready (R103). -/
theorem readField_eq_pump (c : ReadCmd) (s : State) : readField c s = pumpReader s.source.answers (peekLoop c s) := by
  obtain ⟨-, -, -, -, hsource, -⟩ := peekLoop_frame c s
  rw [readField, runReader, hsource]

theorem readField_resumes (c : ReadCmd) : ReaderResumes (readField c) := by
  intro x a _ hwaits
  rw [readField_eq_pump] at hwaits
  refine ⟨by rw [readField_eq_pump]; exact pumpReader_waits _ _ hwaits, ?_⟩
  calc readField c (setSourceAnswers (x.source.answers ++ [a]) x)
      = pumpReader (x.source.answers ++ [a]) (setSourceAnswers (x.source.answers ++ [a]) (peekLoop c x)) := by
        rw [readField_eq_pump, peekLoop_setSourceAnswers, setSourceAnswers_source]
    _ = pumpReader (x.source.answers ++ [a]) (peekLoop c x) := pumpReader_setSourceAnswers _ _ _
    _ = pumpReader [a] (pumpReader x.source.answers (peekLoop c x)) := (pumpReader_append _ _ _ hwaits).symm
    _ = pumpReader [a] (readField c x) := by rw [readField_eq_pump]

/-- As `commandTo_writer_resumes`, for the reader. -/
theorem commandTo_reader_resumes {checks : List Check} {eff : State → State} {s t : State} (a : SourceAnswer)
    (heff : ReaderResumes eff) (h : commandTo .reader checks eff s = .next t) (hwaits : t.r.busy ≠ none) :
    t.source.answers = [] ∧
      commandTo .reader checks eff (setSourceAnswers (s.source.answers ++ [a]) s) = .next (pumpReader [a] t) := by
  obtain ⟨hfree, hcase⟩ := commandTo_cases h
  have hidle : s.r.busy = none := by simpa [unitIsBusy] using hfree
  obtain ⟨-, rfl⟩ | ⟨-, c, -, rfl⟩ | ⟨hfault, hpass, rfl⟩ := hcase
  · exact absurd hidle hwaits
  · exact absurd hidle hwaits
  · obtain ⟨hused, hresumed⟩ := heff (closeInterval .reader s) a hidle hwaits
    refine ⟨hused, ?_⟩
    rw [← hresumed]
    exact commandTo_pass (s := setSourceAnswers _ s) hfree hfault hpass

/-- As `exec_writer_resumes`, for the reader. -/
theorem exec_reader_resumes {i : Instr} {s t : State} (a : SourceAnswer) (hu : i.unit = .reader)
    (h : exec i s = .next t) (hwaits : t.r.busy ≠ none) :
    t.source.answers = [] ∧ exec i (setSourceAnswers (s.source.answers ++ [a]) s) = .next (pumpReader [a] t) := by
  cases i with
  | rBit => exact commandTo_reader_resumes a (readField_resumes .bit) h hwaits
  | rBits w => exact commandTo_reader_resumes a (readField_resumes (.bits w)) h hwaits
  | rPeek w => exact commandTo_reader_resumes a (readField_resumes (.peek w)) h hwaits
  | rNew => exact commandTo_reader_resumes (eff := attachReader) a (.of_idle fun _ _ => rfl) h hwaits
  | rSkip w => exact commandTo_reader_resumes (eff := skipBits w) a (.of_idle fun _ hidle => hidle) h hwaits
  | rReset => exact commandTo_reader_resumes (eff := dropBuffer) a (.of_idle fun _ hidle => hidle) h hwaits
  | rInner => exact commandTo_reader_resumes (eff := exposeSource) a (.of_idle fun _ hidle => hidle) h hwaits
  | rUnwrap => exact commandTo_reader_resumes (eff := detachReader) a (.of_idle fun _ hidle => hidle) h hwaits
  | wNew | wBit _ | wBits _ _ | wFlush | wInner | wUnwrap => cases hu

/-- Settles O52: the waiting command has used every answer, so the step pumps the one that came; a pump in two portions is
one pump of both. -/
theorem lateAnswerResumesTheCommand : Obligations.LateAnswerResumesTheCommand := by
  unfold Obligations.LateAnswerResumesTheCommand
  refine ⟨fun i s t a rest hu h hwaits hin => ?_, fun i s t a rest hu h hwaits hin => ?_⟩
  · obtain ⟨hused, hresumed⟩ :=
      exec_writer_resumes a hu (exec_setInputs rest h) (show (t.setInputs rest).w.busy ≠ none from hwaits)
    have hstep : step t = .next (pumpWriter [a] (t.setInputs rest)) := by
      rw [step_of_input hin, takeInput, hused, runWriter, pumpWriter_setSinkAnswers]
      rfl
    exact hstep.trans hresumed.symm
  · obtain ⟨hused, hresumed⟩ :=
      exec_reader_resumes a hu (exec_setInputs rest h) (show (t.setInputs rest).r.busy ≠ none from hwaits)
    have hstep : step t = .next (pumpReader [a] (t.setInputs rest)) := by
      rw [step_of_input hin, takeInput, hused, runReader, pumpReader_setSourceAnswers]
      rfl
    exact hstep.trans hresumed.symm

end Sys2Proof.Machine
end

section
/-! The bits of a byte stream in wire order (R43, R44): O54. -/

namespace Sys2Proof.Machine

open Sys2Proof

/-- The low `m + n` bits of a value are its low `m` bits and then the next `n` (R43). -/
theorem bitsLsb_add {k : Nat} (m n : Nat) (x : BitVec k) : bitsLsb (m + n) x = bitsLsb m x ++ bitsLsb n (x >>> m) := by
  simp [bitsLsb, List.range_add]

/-- The low `w` bits survive a truncation to `w` bits or more. -/
theorem bitsLsb_setWidth {n w : Nat} (m : Nat) (x : BitVec n) (h : w ≤ m) :
    bitsLsb w (x.setWidth m) = bitsLsb w x := by
  refine List.map_congr_left fun k hk => ?_
  rw [List.mem_range] at hk
  simp [show k < m by omega]

/-- Bit `k` of a byte stream is bit `k mod 8` of byte `k / 8` (R43). -/
theorem streamBits_getElem? {bytes : List Byte} {k : Nat} {b : Byte} (h : bytes[k / 8]? = some b) :
    (streamBits bytes)[k]? = some (b.getLsbD (k % 8)) := by
  induction bytes generalizing k with
  | nil => simp at h
  | cons c bytes ih =>
    rw [streamBits_cons]
    by_cases hk : k < 8
    · rw [Nat.div_eq_of_lt hk] at h
      cases h
      rw [List.getElem?_append_left (by simpa using hk), bitsLsb_getElem? _ hk, Nat.mod_eq_of_lt hk]
    · obtain ⟨j, rfl⟩ : ∃ j, k = j + 8 := ⟨k - 8, by omega⟩
      rw [Nat.add_div_right j (by decide)] at h
      rw [List.getElem?_append_right (by simp), bitsLsb_length, Nat.add_sub_cancel, Nat.add_mod_right]
      exact ih h

/-- `SinkWrite16LE(h)` carries the low byte and then the high byte (R10, R44). -/
theorem write16_bytes (h : Half) : (SinkTxn.write16 h).bytes = [h.setWidth 8, (h >>> 8).setWidth 8] := by
  have hlow : lowByte h = h.setWidth 8 := by
    refine BitVec.eq_of_getLsbD_eq fun k _ => ?_
    simp [lowByte]
  have hhigh : highByte h = (h >>> 8).setWidth 8 := by
    refine BitVec.eq_of_getLsbD_eq fun k _ => ?_
    simp [highByte]
  rw [SinkTxn.bytes, hlow, hhigh]

/-- The 16 bits of a write stand in the stream in the order of its chunk (R43, R44). -/
theorem streamBits_write16 (h : Half) : streamBits (SinkTxn.write16 h).bytes = bitsLsb 16 h := by
  rw [write16_bytes, streamBits_cons, streamBits_cons, streamBits_nil, List.append_nil,
    bitsLsb_setWidth 8 h le_rfl, bitsLsb_setWidth 8 (h >>> 8) le_rfl, ← bitsLsb_add 8 8 h]

/-- Settles O54: by induction on the bytes, and by the two halves of a 16-bit write. -/
theorem wireFormatIsLsbFirst : Obligations.WireFormatIsLsbFirst := by
  unfold Obligations.WireFormatIsLsbFirst
  exact ⟨fun _ _ _ h => streamBits_getElem? h, fun h => ⟨write16_bytes h, streamBits_write16 h⟩⟩

end Sys2Proof.Machine
end

section
/-! A byte the host takes between two reads (R56, R137, R178): O56. -/

namespace Sys2Proof.Machine

open Sys2Proof

/-- A host read in the unit's interval takes the source's next answer and changes nothing of the reader (R56, R137). -/
theorem step_hostSource {s : State} {a : Byte} {rest : List Input} {as : List SourceAnswer}
    (hin : s.inputs = .hostSource :: rest) (hexposed : s.source.exposed = true)
    (hanswers : s.source.answers = .byte a :: as) :
    ∃ t, step s = .next t ∧ t.r = s.r ∧ t.fault = s.fault ∧ t.config = s.config ∧ t.responses = s.responses ∧
      t.source.answers = as ∧ t.source.taken = s.source.taken ++ [a] := by
  refine ⟨recordSource .host (.byte a) (setSourceAnswers as (s.setInputs rest)), ?_, rfl, rfl, rfl, rfl, rfl, ?_⟩
  · rw [step_of_input hin]
    simp [takeInput, hostUsesSource, hostMayUseSource, hexposed, hanswers]
  · simp [SourcePort.taken, SourceAnswer.byte?]

/-- Fills take their bytes from the source (R42, R101). -/
theorem State.taken_afterFills (s : State) (bytes : List Byte) :
    (s.afterFills bytes).source.taken = s.source.taken ++ bytes := by
  simp [SourcePort.taken, State.afterFills, SourceAnswer.byte?]

/-- Settles O56: the host's read leaves the reader ready and its buffer as it was, so the read after it is a read of the
bytes that follow. -/
theorem hostReadIsSkippedByTheNextFill : Obligations.HostReadIsSkippedByTheNextFill := by
  unfold Obligations.HostReadIsSkippedByTheNextFill
  intro c s a bytes rest as hready hexposed hoffset hwidth hbytes hin hanswers
  obtain ⟨t, hstep, hr, hfault, hconfig, hresponses, hleft, htaken⟩ := step_hostSource hin hexposed hanswers
  have hready' : ReaderReady t := by simpa only [ReaderReady, readerPoisonedNow, hr, hfault, hconfig] using hready
  rw [← hr] at hoffset hbytes
  obtain ⟨u, field, hexec, hfield, hlt, hresponse, hbuffered, hrest, -⟩ :=
    readsReturnTheNextBits c t bytes as hready' hwidth hoffset hbytes hleft
  have htaken' : u.source.taken = t.source.taken ++ bytes := by
    cases hexec.symm.trans (exec_read_fills hready' hwidth hoffset hbytes hleft)
    exact State.taken_afterFills (closeInterval .reader t) bytes
  rw [hr] at hfield hbuffered
  rw [hresponses] at hresponse
  exact ⟨t, u, field, hstep, hr, hresponses, htaken, hexec, hfield, hlt, hresponse, hbuffered,
    by rw [htaken', htaken, List.append_assoc]; rfl, hrest⟩

end Sys2Proof.Machine
end

section
/-! The legal words: decoder, encoder and the rows of spec/opcode_table.json agree (R60 to R68), and O4 to O7. -/

namespace Sys2Proof

/-! ### The operands of a row -/

/-- The row takes these operands: `W` and `V` are 0 where it has none (R62, R63). -/
def Opcode.Admits (op : Opcode) (w : BitVec 5) (v : Half) : Prop :=
  (op.takesWidth = false → w = 0#5) ∧ v &&& ~~~op.valueMask = 0#16

/-- Bits with none outside a mask are what the mask leaves of them. -/
theorem and_eq_self_of_and_not_eq_zero {n : Nat} {v m : BitVec n} (h : v &&& ~~~m = 0#n) : v &&& m = v := by
  calc v &&& m = v &&& m ||| v &&& ~~~m := by rw [h, BitVec.or_zero]
    _ = v &&& (m ||| ~~~m) := BitVec.and_or_distrib_left.symm
    _ = v := by rw [BitVec.or_not_self, BitVec.and_allOnes]

theorem Instr.operands_admitted (i : Instr) : i.opcode.Admits (BitVec.ofNat 5 i.widthOperand) i.valueOperand := by
  cases i with
  | wBit b => cases b <;> simp [Opcode.Admits, Instr.opcode, Instr.widthOperand, Instr.valueOperand, Opcode.valueMask]
  | wNew | wBits _ _ | wFlush | wInner | wUnwrap | rNew | rBit | rBits _ | rPeek _ | rSkip _ | rReset | rInner
  | rUnwrap =>
    simp [Opcode.Admits, Instr.opcode, Opcode.takesWidth, Instr.widthOperand, Instr.valueOperand, Opcode.valueMask]

/-- A well-formed command is built from its own operands: its width fits the 5 bits of `W` (R61). -/
theorem Instr.build_operands {i : Instr} (h : i.WellFormed) :
    i.opcode.build (BitVec.ofNat 5 i.widthOperand) i.valueOperand = i := by
  cases i with
  | wBit b => cases b <;> rfl
  | wBits w _ | rBits w | rPeek w | rSkip w =>
    have hw : w % 32 = w := Nat.mod_eq_of_lt h
    simp [Instr.opcode, Opcode.build, Instr.widthOperand, Instr.valueOperand, hw]
  | wNew | wFlush | wInner | wUnwrap | rNew | rBit | rReset | rInner | rUnwrap => rfl

/-- A command built from fields of a word is well formed (R61). -/
theorem Opcode.build_wellFormed (op : Opcode) (w : BitVec 5) (v : Half) : (op.build w v).WellFormed := by
  cases op with
  | wBits | rBits | rPeek | rSkip => exact w.isLt
  | wNew | wBit | wFlush | wInner | wUnwrap | rNew | rBit | rReset | rInner | rUnwrap => trivial

@[simp] theorem Opcode.opcode_build (op : Opcode) (w : BitVec 5) (v : Half) : (op.build w v).opcode = op := by
  cases op <;> rfl

/-- The encoder gives back the operands a row admits (R62, R63). -/
theorem Opcode.encode_build {op : Opcode} {w : BitVec 5} {v : Half} (h : op.Admits w v) :
    encode (op.build w v) = packWord op.bits w v := by
  obtain ⟨hw, hnot⟩ := h
  have hv := and_eq_self_of_and_not_eq_zero hnot
  have hwidth : BitVec.ofNat 5 (op.build w v).widthOperand = w := by
    cases op with
    | wBits | rBits | rPeek | rSkip => simp [Opcode.build, Instr.widthOperand]
    | wNew | wBit | wFlush | wInner | wUnwrap | rNew | rBit | rReset | rInner | rUnwrap => exact (hw rfl).symm
  have hvalue : (op.build w v).valueOperand = v := by
    cases op with
    | wBits => rfl
    | wBit =>
      rw [Opcode.valueMask, BitVec.and_one_eq_setWidth_ofBool_getLsbD] at hv
      rw [← hv]
      cases v.getLsbD 0 <;> simp [Opcode.build, Instr.valueOperand]
    | wNew | wFlush | wInner | wUnwrap | rNew | rBit | rBits | rPeek | rSkip | rReset | rInner | rUnwrap =>
      rwa [Opcode.valueMask, BitVec.and_zero] at hv
  rw [encode, Opcode.opcode_build, hwidth, hvalue]

/-! ### Legal words -/

/-- The field checks pass exactly where `RSV` is 0 and the row takes the operands (R63, R68). -/
theorem decodeFields_eq_instr_iff {op : Opcode} {rsv : BitVec 3} {w : BitVec 5} {v : Half} {i : Instr} :
    decodeFields op rsv w v = .instr i ↔ rsv = 0#3 ∧ op.Admits w v ∧ op.build w v = i := by
  unfold decodeFields Opcode.Admits
  split
  next hrsv => simp [hrsv]
  next hrsv =>
    split
    next hw =>
      obtain ⟨hnone, hw⟩ := hw
      simp [hnone, hw]
    next hw =>
      split
      next hv => simp [hv]
      next hv =>
        simp only [ne_eq, not_not, not_and] at hrsv hw hv
        simpa [hrsv, hv] using fun _ => hw

/-- The legal words are the packed operands of the rows, and stand for the commands built from them (R60, R62, R68). -/
theorem decode_eq_instr_iff {word : Word} {i : Instr} :
    decode word = .instr i ↔ ∃ (op : Opcode) (w : BitVec 5) (v : Half),
      op.Admits w v ∧ packWord op.bits w v = word ∧ op.build w v = i := by
  constructor
  · intro h
    unfold decode at h
    split at h
    next => cases h
    next op hop =>
      obtain ⟨hrsv, hadmits, hbuild⟩ := decodeFields_eq_instr_iff.mp h
      refine ⟨op, wField word, vField word, hadmits, ?_, hbuild⟩
      rw [Opcode.bits_of_ofBits hop, packWord_fields word hrsv]
  · rintro ⟨op, w, v, hadmits, rfl, hbuild⟩
    rw [decode_packWord]
    exact decodeFields_eq_instr_iff.mpr ⟨rfl, hadmits, hbuild⟩

/-! ### The rows of the table -/

/-- A word packs given fields when it has them and its `RSV` is 0 (R60). -/
theorem eq_packWord_iff {word : Word} {opc : Byte} {w : BitVec 5} {v : Half} :
    word = packWord opc w v ↔ opcField word = opc ∧ rsvField word = 0#3 ∧ wField word = w ∧ vField word = v := by
  constructor
  · rintro rfl
    simp
  · rintro ⟨rfl, hrsv, rfl, rfl⟩
    exact (packWord_fields word hrsv).symm

theorem opcField_and (x y : Word) : opcField (x &&& y) = opcField x &&& opcField y := BitVec.extractLsb'_and
theorem rsvField_and (x y : Word) : rsvField (x &&& y) = rsvField x &&& rsvField y := BitVec.extractLsb'_and
theorem wField_and (x y : Word) : wField (x &&& y) = wField x &&& wField y := BitVec.extractLsb'_and
theorem vField_and (x y : Word) : vField (x &&& y) = vField x &&& vField y := BitVec.extractLsb'_and

/-- The table's pattern is the row's opcode with nothing else set. -/
theorem Opcode.tableRow_pattern (op : Opcode) : op.tableRow.pattern = packWord op.bits 0#5 0#16 := by
  cases op <;> rfl

/-- The table's mask covers `OPC`, `RSV`, and of `W` and `V` what the row does not take. -/
theorem Opcode.tableRow_mask (op : Opcode) :
    opcField op.tableRow.mask = BitVec.allOnes 8 ∧ rsvField op.tableRow.mask = BitVec.allOnes 3 ∧
      wField op.tableRow.mask = (if op.takesWidth then 0#5 else BitVec.allOnes 5) ∧
      vField op.tableRow.mask = ~~~op.valueMask := by
  cases op <;> decide

/-- The words of a row are its opcode packed with operands it admits (R62). -/
theorem Opcode.matches_iff {op : Opcode} {word : Word} :
    op.tableRow.matches word ↔ ∃ w v, op.Admits w v ∧ packWord op.bits w v = word := by
  obtain ⟨hopc, hrsv, hw, hv⟩ := op.tableRow_mask
  have hwidth : wField word &&& wField op.tableRow.mask = 0#5 ↔ (op.takesWidth = false → wField word = 0#5) := by
    rw [hw]
    cases op.takesWidth with
    | true => simp
    | false => simp [-BitVec.reduceAllOnes]
  calc op.tableRow.matches word
    _ ↔ opcField word = op.bits ∧ rsvField word = 0#3 ∧ op.Admits (wField word) (vField word) := by
      rw [TableRow.matches, op.tableRow_pattern, eq_packWord_iff, opcField_and, rsvField_and, wField_and, vField_and,
        hopc, hrsv, hwidth, hv, BitVec.and_allOnes, BitVec.and_allOnes, Admits]
    _ ↔ ∃ w v, op.Admits w v ∧ packWord op.bits w v = word := by
      simp only [eq_comm (b := word), eq_packWord_iff]
      constructor
      · exact fun ⟨hbits, hzero, hadmits⟩ => ⟨_, _, hadmits, hbits, hzero, rfl, rfl⟩
      · rintro ⟨w, v, hadmits, hbits, hzero, rfl, rfl⟩
        exact ⟨hbits, hzero, hadmits⟩

/-! ### The obligations -/

/-- Settles O4: the decoder evaluated on each of the twelve words. -/
theorem specWordsDecode : Obligations.SpecWordsDecode := by
  unfold Obligations.SpecWordsDecode
  decide

/-- Settles O5: the word of a command packs operands its row admits, and they build the command again. -/
theorem decodeOfEncodeIsTheCommand : Obligations.DecodeOfEncodeIsTheCommand := by
  unfold Obligations.DecodeOfEncodeIsTheCommand
  exact fun i h => decode_eq_instr_iff.mpr ⟨i.opcode, _, _, i.operands_admitted, rfl, Instr.build_operands h⟩

/-- Settles O6: a legal word packs operands its row admits, which the encoder gives back. -/
theorem encodeOfDecodeIsTheWord : Obligations.EncodeOfDecodeIsTheWord := by
  unfold Obligations.EncodeOfDecodeIsTheWord
  intro word i h
  obtain ⟨op, w, v, hadmits, rfl, rfl⟩ := decode_eq_instr_iff.mp h
  exact ⟨op.build_wellFormed w v, Opcode.encode_build hadmits⟩

/-- Settles O7: both sides are the packed operands of a row, and the opcode tells the rows apart. -/
theorem legalWordsAreTheTableRows : Obligations.LegalWordsAreTheTableRows := by
  unfold Obligations.LegalWordsAreTheTableRows
  intro word
  simp only [decode_eq_instr_iff, Opcode.matches_iff]
  refine ⟨⟨?_, ?_⟩, ?_, ?_⟩
  · rintro ⟨i, op, w, v, hadmits, hword, -⟩
    exact ⟨op, w, v, hadmits, hword⟩
  · rintro ⟨op, w, v, hadmits, hword⟩
    exact ⟨op.build w v, op, w, v, hadmits, hword, rfl⟩
  · rintro i ⟨op, w, v, hadmits, hword, rfl⟩
    rw [op.opcode_build]
    exact ⟨w, v, hadmits, hword⟩
  · rintro op₁ op₂ ⟨w₁, v₁, -, rfl⟩ ⟨w₂, v₂, -, hword⟩
    have hbits : op₂.bits = op₁.bits := by simpa using congrArg opcField hword
    simpa using congrArg Opcode.ofBits hbits.symm

end Sys2Proof
end

section
/-! The response of a command (R65 to R67, R69): O9 and O10. -/

namespace Sys2Proof.Machine

open Sys2Proof

/-! ### Responses -/

/-- `STATUS` of a response word (R65). -/
@[simp] theorem responseWord_status (st : Status) (fcode : Byte) (data : Half) :
    (responseWord st fcode data).extractLsb' 24 8 = st.code := by
  apply BitVec.eq_of_getLsbD_eq
  intro k hk
  simp [responseWord, hk, show 24 + k < 32 by omega, show 24 + k - 16 = 8 + k by omega,
    BitVec.getLsbD_of_ge data (24 + k) (by omega)]

/-- `FCODE` of a response word (R65). -/
@[simp] theorem responseWord_fcode (st : Status) (fcode : Byte) (data : Half) :
    (responseWord st fcode data).extractLsb' 16 8 = fcode := by
  apply BitVec.eq_of_getLsbD_eq
  intro k hk
  simp [responseWord, hk, show 16 + k < 24 by omega, show 16 + k < 32 by omega]

/-- `DATA` of a response word (R65). -/
@[simp] theorem responseWord_data (st : Status) (fcode : Byte) (data : Half) :
    (responseWord st fcode data).extractLsb' 0 16 = data := by
  apply BitVec.eq_of_getLsbD_eq
  intro k hk
  simp [responseWord, hk, show k < 24 by omega, show k < 32 by omega]

/-- The data an OK response to a command may carry: only a read gives any, and R.BIT one bit (R67). -/
def MayReturn (i : Instr) (data : Half) : Prop :=
  match i with
  | .rBits _ | .rPeek _ => True
  | .rBit => data = 0#16 ∨ data = 1#16
  | .wNew | .wBit _ | .wBits _ _ | .wFlush | .wInner | .wUnwrap | .rNew | .rSkip _ | .rReset | .rInner | .rUnwrap =>
    data = 0#16

theorem mayReturn_zero (i : Instr) : MayReturn i 0#16 := by
  cases i <;> simp [MayReturn]

/-- The data of a read is data its command may return (R67, R107). -/
theorem mayReturn_data (c : ReadCmd) (field : Half) : MayReturn c.instr (c.data field) := by
  cases c with
  | bit =>
    simp only [ReadCmd.instr, ReadCmd.data, MayReturn, boolData]
    split <;> simp
  | bits w | peek w => trivial

/-- A command that returns data names one of the reads (R67). -/
theorem MayReturn.read {i : Instr} {data : Half} (h : MayReturn i data) (hdata : data ≠ 0#16) :
    (∃ w, i = .rPeek w) ∨ (∃ w, i = .rBits w) ∨ (i = .rBit ∧ data = 0x0001#16) := by
  cases i with
  | rPeek w => exact .inl ⟨w, rfl⟩
  | rBits w => exact .inr (.inl ⟨w, rfl⟩)
  | rBit => exact .inr (.inr ⟨rfl, h.resolve_left hdata⟩)
  | wNew | wBit _ | wBits _ _ | wFlush | wInner | wUnwrap | rNew | rSkip _ | rReset | rInner | rUnwrap =>
    exact absurd h hdata

/-- The responses of a unit whose OK carries data that `D` allows, `FAULT` being `fault` (R65 to R67). -/
inductive ResponseOf (u : UnitId) (D : Half → Prop) (fault : Byte) : Response → Prop
  | ok {data : Half} (h : D data) : ResponseOf u D fault { unit := some u, word := responseWord .ok 0#8 data }
  | ioError : ResponseOf u D fault { unit := some u, word := responseWord .ioError 0#8 0#16 }
  | endOfStream : ResponseOf u D fault { unit := some u, word := responseWord .endOfStream 0#8 0#16 }
  | fault : ResponseOf u D fault { unit := some u, word := responseWord .fault fault 0#16 }

section
variable {u : UnitId} {D : Half → Prop} {fault : Byte} {x : Response}

theorem ResponseOf.unit_eq (h : ResponseOf u D fault x) : x.unit = some u := by
  cases h <;> rfl

/-- The status is one of the four of R66. -/
theorem ResponseOf.status_le (h : ResponseOf u D fault x) : (x.word.extractLsb' 24 8).toNat ≤ 3 := by
  cases h <;> simp [Status.code]

/-- `FCODE` is `FAULT` beside the status FAULT, and 0 beside any other (R65). -/
theorem ResponseOf.fcode_eq (h : ResponseOf u D fault x) :
    x.word.extractLsb' 16 8 = if x.word.extractLsb' 24 8 = 0x03#8 then fault else 0#8 := by
  cases h <;> simp [Status.code]

/-- Nonzero `DATA` comes with status OK (R67). -/
theorem ResponseOf.ok_of_data (h : ResponseOf u D fault x) (hdata : x.word.extractLsb' 0 16 ≠ 0#16) :
    x.word.extractLsb' 24 8 = 0x00#8 ∧ D (x.word.extractLsb' 0 16) := by
  cases h with
  | ok hD => simpa [Status.code] using hD
  | ioError | endOfStream | fault => simp at hdata

end

/-! ### One response, or none yet -/

/-- From `s` to `t` the unit's command has given its one response, or it waits and has given none (R69, R162). -/
def RespondsOrWaits (u : UnitId) (D : Half → Prop) (s t : State) : Prop :=
  (unitIsBusy u t = true ∧ t.responses = s.responses) ∨
    (unitIsBusy u t = false ∧ ∃ x, t.responses = s.responses ++ [x] ∧ ResponseOf u D t.fault x)

section
variable {u : UnitId} {D : Half → Prop}

/-- What waited before has given no response yet. -/
theorem RespondsOrWaits.of_responses_eq {s s' t : State} (hs : s'.responses = s.responses)
    (h : RespondsOrWaits u D s' t) : RespondsOrWaits u D s t := by
  simpa only [RespondsOrWaits, hs] using h

/-- An OK with no data from a unit that is idle then. -/
theorem RespondsOrWaits.of_ok {s t : State} (hzero : D 0#16) (hidle : unitIsBusy u t = false)
    (hresponses : t.responses = s.responses) : RespondsOrWaits u D s (respondOk u 0#16 t) :=
  .inr ⟨by cases u <;> exact hidle, _, by rw [respondOk_responses, hresponses], .ok hzero⟩

theorem unitIsBusy_closeInterval (v : UnitId) (s : State) : unitIsBusy u (closeInterval v s) = unitIsBusy u s := by
  cases u <;> cases v <;> rfl

theorem closeInterval_responses (s : State) : (closeInterval u s).responses = s.responses := by
  cases u <;> rfl

/-- A command responds or waits as its effect does; a fault is a response (R155). -/
theorem commandTo_respondsOrWaits {checks : List Check} {eff : State → State} {s t : State}
    (heff : ∀ y, unitIsBusy u y = false → RespondsOrWaits u D y (eff y)) (h : commandTo u checks eff s = .next t) :
    RespondsOrWaits u D s t := by
  obtain ⟨hidle, hcases⟩ := commandTo_cases h
  rw [← unitIsBusy_closeInterval u] at hidle
  refine .of_responses_eq (closeInterval_responses (u := u) s) ?_
  obtain ⟨-, rfl⟩ | ⟨-, c, -, rfl⟩ | ⟨-, -, rfl⟩ := hcases
  · exact .inr ⟨by cases u <;> exact hidle, _, rfl, .fault⟩
  · exact .inr ⟨by cases u <;> exact hidle, _, rfl, .fault⟩
  · exact heff _ hidle

end

/-! ### The writer -/

section
variable {D : Half → Prop} (hzero : D 0#16)
include hzero

/-- An answer ends the writer's command with a response, or leaves it at its next transaction (R83, R86). -/
theorem writerAnswered_respondsOrWaits (p : WriterWait) (a : SinkAnswer) (s : State) :
    RespondsOrWaits .writer D s (writerAnswered p a s) := by
  by_cases hf : s.fault = 0#8
  · rw [writerAnswered_clear hf]
    cases a with
    | ioError kept => exact .inr ⟨rfl, _, rfl, .ioError⟩
    | ok =>
      cases p with
      | emission => exact .inr ⟨rfl, _, rfl, .ok hzero⟩
      | drain => exact .inl ⟨rfl, rfl⟩
      | flush => exact .inr ⟨rfl, _, rfl, .ok hzero⟩
  · rw [writerAnswered_faulted hf]
    exact .inr ⟨rfl, _, rfl, .fault⟩

/-- A writer's command in flight, run on any answers. -/
theorem runWriter_respondsOrWaits {s t : State} (hbusy : unitIsBusy .writer t = true)
    (hresponses : t.responses = s.responses) : RespondsOrWaits .writer D s (runWriter t) := by
  refine pumpWriter_induct (P := RespondsOrWaits .writer D s) (fun _ _ h => h) ?_ t.sink.answers t
    (.inl ⟨hbusy, hresponses⟩)
  rintro p a y hp (⟨-, hy⟩ | ⟨hidle, -⟩)
  · exact .of_responses_eq hy (writerAnswered_respondsOrWaits hzero p a y)
  · simp [unitIsBusy, hp] at hidle

theorem writeField_respondsOrWaits (w : Nat) (v : Half) (s : State) (hidle : unitIsBusy .writer s = false) :
    RespondsOrWaits .writer D s (writeField w v s) := by
  by_cases h : 16 ≤ s.w.filled + w
  · rw [writeField_atThreshold h]
    exact runWriter_respondsOrWaits hzero rfl rfl
  · rw [writeField_below (by omega)]
    exact .of_ok hzero hidle rfl

theorem drainAndFlush_respondsOrWaits (s : State) : RespondsOrWaits .writer D s (drainAndFlush s) :=
  runWriter_respondsOrWaits hzero rfl rfl

end

/-! ### The reader -/

section
variable {c : ReadCmd} {D : Half → Prop} (hdata : ∀ field, D (c.data field))

/-- The command that waits after the loop head or an answer is the one that was in flight (R103, R162). -/
theorem peekLoop_busy (c : ReadCmd) (s : State) : ∀ c' ∈ (peekLoop c s).r.busy, c' = c := by
  unfold peekLoop
  split <;> simp

theorem readerAnswered_busy (c : ReadCmd) (a : SourceAnswer) (s : State) :
    ∀ c' ∈ (readerAnswered c a s).r.busy, c' = c := by
  by_cases hf : s.fault = 0#8
  · rw [readerAnswered_clear hf]
    cases a with
    | byte b => exact peekLoop_busy c _
    | endOfStream | ioError => simp
  · rw [readerAnswered_faulted hf]
    simp

include hdata

theorem peekLoop_respondsOrWaits (s : State) : RespondsOrWaits .reader D s (peekLoop c s) := by
  unfold peekLoop
  split
  · exact .inl ⟨rfl, rfl⟩
  · exact .inr ⟨rfl, _, rfl, .ok (hdata _)⟩

/-- An answer ends the read with a response, or leaves it at its next fill (R101, R103, R112). -/
theorem readerAnswered_respondsOrWaits (a : SourceAnswer) (s : State) :
    RespondsOrWaits .reader D s (readerAnswered c a s) := by
  by_cases hf : s.fault = 0#8
  · rw [readerAnswered_clear hf]
    cases a with
    | byte b => exact .of_responses_eq rfl (peekLoop_respondsOrWaits hdata _)
    | endOfStream => exact .inr ⟨rfl, _, rfl, .endOfStream⟩
    | ioError => exact .inr ⟨rfl, _, rfl, .ioError⟩
  · rw [readerAnswered_faulted hf]
    exact .inr ⟨rfl, _, rfl, .fault⟩

theorem readField_respondsOrWaits (s : State) : RespondsOrWaits .reader D s (readField c s) := by
  have hpump : RespondsOrWaits .reader D s (readField c s) ∧ ∀ c' ∈ (readField c s).r.busy, c' = c := by
    rw [readField_eq_pump]
    refine pumpReader_induct (P := fun t => RespondsOrWaits .reader D s t ∧ ∀ c' ∈ t.r.busy, c' = c)
      (fun _ _ h => h) ?_ s.source.answers (peekLoop c s) ⟨peekLoop_respondsOrWaits hdata s, peekLoop_busy c s⟩
    rintro c' a y hc' ⟨⟨-, hy⟩ | ⟨hidle, -⟩, hsame⟩
    · obtain rfl := hsame c' hc'
      exact ⟨.of_responses_eq hy (readerAnswered_respondsOrWaits hdata a y), readerAnswered_busy c' a y⟩
    · simp [unitIsBusy, hc'] at hidle
  exact hpump.1

end

/-! ### Commands -/

/-- A command gives one response with data it may return, or waits and has given none (R65, R67, R69, R162). -/
theorem exec_respondsOrWaits {i : Instr} {s t : State} (h : exec i s = .next t) :
    RespondsOrWaits i.unit (MayReturn i) s t := by
  cases i with
  | wNew => exact commandTo_respondsOrWaits (eff := attachWriter) (fun _ _ => .of_ok rfl rfl rfl) h
  | wBit b => exact commandTo_respondsOrWaits (writeField_respondsOrWaits (mayReturn_zero (.wBit b)) 1 (bitValue b)) h
  | wBits w v => exact commandTo_respondsOrWaits (writeField_respondsOrWaits (mayReturn_zero (.wBits w v)) w v) h
  | wFlush => exact commandTo_respondsOrWaits (fun y _ => drainAndFlush_respondsOrWaits (mayReturn_zero .wFlush) y) h
  | wInner => exact commandTo_respondsOrWaits (eff := exposeSink) (fun _ hidle => .of_ok rfl hidle rfl) h
  | wUnwrap => exact commandTo_respondsOrWaits (eff := detachWriter) (fun _ hidle => .of_ok rfl hidle rfl) h
  | rNew => exact commandTo_respondsOrWaits (eff := attachReader) (fun _ _ => .of_ok rfl rfl rfl) h
  | rBit => exact commandTo_respondsOrWaits (fun y _ => readField_respondsOrWaits (mayReturn_data .bit) y) h
  | rBits w => exact commandTo_respondsOrWaits (fun y _ => readField_respondsOrWaits (mayReturn_data (.bits w)) y) h
  | rPeek w => exact commandTo_respondsOrWaits (fun y _ => readField_respondsOrWaits (mayReturn_data (.peek w)) y) h
  | rSkip w => exact commandTo_respondsOrWaits (eff := skipBits w) (fun _ hidle => .of_ok rfl hidle rfl) h
  | rReset => exact commandTo_respondsOrWaits (eff := dropBuffer) (fun _ hidle => .of_ok rfl hidle rfl) h
  | rInner => exact commandTo_respondsOrWaits (eff := exposeSource) (fun _ hidle => .of_ok rfl hidle rfl) h
  | rUnwrap => exact commandTo_respondsOrWaits (eff := detachReader) (fun _ hidle => .of_ok rfl hidle rfl) h

/-- Settles O9: what an effect, a fault or the last answer responds is one response of the unit. -/
theorem eachCommandGivesOneResponse : Obligations.EachCommandGivesOneResponse := by
  unfold Obligations.EachCommandGivesOneResponse
  intro i s t h
  obtain hwaits | ⟨hidle, x, hresponses, hx⟩ := exec_respondsOrWaits h
  · exact .inl hwaits
  · exact .inr ⟨hidle, x, hresponses, hx.unit_eq, hx.status_le, hx.fcode_eq⟩

/-- Settles O10: only an OK carries data, and it is data the command may return. -/
theorem dataComesOnlyFromSuccessfulReads : Obligations.DataComesOnlyFromSuccessfulReads := by
  unfold Obligations.DataComesOnlyFromSuccessfulReads
  intro i s t x h hresponses hdata
  obtain ⟨-, hnone⟩ | ⟨-, y, hone, hy⟩ := exec_respondsOrWaits h
  · simp [hnone] at hresponses
  · obtain rfl : x = y := by simpa [hone, eq_comm] using hresponses
    obtain ⟨hok, hmay⟩ := hy.ok_of_data hdata
    exact ⟨hok, hmay.read hdata⟩

end Sys2Proof.Machine
end

section
/-! The steps of a command word, and the inputs a step refuses (R21, R63, R69, R130, R137): O3, O8, O51 and O59. -/

namespace Sys2Proof.Machine

open Sys2Proof

/-! ### Command words -/

/-- A step on a command word issues it (R69). -/
theorem step_of_command {word : Word} {rest : List Input} {s : State} (h : s.inputs = .command word :: rest) :
    step s = issueWord word (s.setInputs rest) :=
  step_of_input h

theorem issueWord_of_instr {word : Word} {i : Instr} (h : decode word = .instr i) (s : State) :
    issueWord word s = exec i s := by
  simp [issueWord, h]

theorem issueWord_of_illegal {word : Word} {why : IllegalReason} (h : decode word = .illegal why) (s : State) :
    issueWord word s = illegalWord (selectUnit word) s := by
  simp [issueWord, h]

/-- A word that selects a unit, legal or not, is a command to it (R62, R69; log 7). -/
theorem issueWord_of_unit {word : Word} {u : UnitId} (hu : selectUnit word = some u) (s : State) :
    ∃ checks eff, issueWord word s = commandTo u checks eff s := by
  cases hd : decode word with
  | instr i =>
    obtain rfl : i.unit = u := by simpa [hu, eq_comm] using selectUnit_of_decode hd
    simpa only [issueWord_of_instr hd] using exec_eq_commandTo i s
  | illegal why =>
    rw [issueWord_of_illegal hd, hu]
    exact ⟨_, _, rfl⟩

/-- A word that selects no unit is illegal, and the block answers it (log 7). -/
theorem issueWord_of_no_unit {word : Word} (hu : selectUnit word = none) (s : State) :
    ∃ t, issueWord word s = .next t := by
  cases hd : decode word with
  | instr i => simp [selectUnit_of_decode hd] at hu
  | illegal why =>
    rw [issueWord_of_illegal hd, hu]
    exact ⟨_, rfl⟩

/-- An illegal word to a faultless block whose unit is idle raises ILLEGAL_COMMAND (R63, R64, R156); it ends the interval
of the unit it goes to (log 9). -/
theorem illegalWord_raises {o : Option UnitId} {s : State} (hf : s.fault = 0#8)
    (hidle : ∀ u, o = some u → unitIsBusy u s = false) :
    ∃ y, illegalWord o s = .next (raiseFault o .illegalCommand y) ∧ (y = s ∨ ∃ u, y = closeInterval u s) := by
  cases o with
  | none => exact ⟨s, by simp [illegalWord, afterChecks, hf, firstFault], .inl rfl⟩
  | some u => exact ⟨closeInterval u s, commandTo_fault (hidle u rfl) hf rfl, .inr ⟨u, rfl⟩⟩

/-! ### Refused inputs -/

/-- A command is refused by a busy unit, and by no other (R69, U12). -/
theorem commandTo_refused_iff {u : UnitId} {checks : List Check} {eff : State → State} {s : State} {r : Refusal} :
    commandTo u checks eff s = .refused r ↔ r = .unitBusy u ∧ unitIsBusy u s = true := by
  cases hb : unitIsBusy u s with
  | true => simp [commandTo_busy hb, eq_comm]
  | false => simp [commandTo_idle hb]

/-- A word is refused by the unit it selects, when that has not responded (R69, U12; log 7). -/
theorem issueWord_refused_iff {word : Word} {s : State} {r : Refusal} :
    issueWord word s = .refused r ↔ ∃ u, r = .unitBusy u ∧ selectUnit word = some u ∧ unitIsBusy u s = true := by
  cases hu : selectUnit word with
  | none =>
    obtain ⟨t, ht⟩ := issueWord_of_no_unit hu s
    simp [ht]
  | some u =>
    obtain ⟨checks, eff, hissue⟩ := issueWord_of_unit hu s
    simp [hissue, commandTo_refused_iff]

/-- The host's transaction on the sink is refused while the writer owns it unexposed (R137, U13). -/
theorem hostUsesSink_refused_iff {x : SinkTxn} {s : State} {r : Refusal} :
    hostUsesSink x s = .refused r ↔
      r = .streamNotExposed .writer ∧ s.w.attached = true ∧ s.sink.exposed = false := by
  have hmay : s.w.attached = true ∧ s.sink.exposed = false ↔ hostMayUseSink s = false := by
    simp [hostMayUseSink, and_comm]
  rw [hmay, hostUsesSink]
  split
  next h => split <;> simp [h]
  next h => simp [h, eq_comm]

/-- The host's read of the source is refused while the reader owns it unexposed (R137, U13). -/
theorem hostUsesSource_refused_iff {s : State} {r : Refusal} :
    hostUsesSource s = .refused r ↔
      r = .streamNotExposed .reader ∧ s.r.attached = true ∧ s.source.exposed = false := by
  have hmay : s.r.attached = true ∧ s.source.exposed = false ↔ hostMayUseSource s = false := by
    simp [hostMayUseSource, and_comm]
  rw [hmay, hostUsesSource]
  split
  next h => split <;> simp [h]
  next h => simp [h, eq_comm]

theorem connectSink_refused_iff {as : List SinkAnswer} {s : State} {r : Refusal} :
    connectSink as s = .refused r ↔ r = .streamOwned .writer ∧ s.w.attached = true := by
  unfold connectSink
  cases s.w.attached <;> simp [eq_comm]

theorem connectSource_refused_iff {as : List SourceAnswer} {s : State} {r : Refusal} :
    connectSource as s = .refused r ↔ r = .streamOwned .reader ∧ s.r.attached = true := by
  unfold connectSource
  cases s.r.attached <;> simp [eq_comm]

/-- The inputs the spec gives no step for, and the refusal of each (U12, U13; log 11). -/
inductive RefusedInput (s : State) : Input → Refusal → Prop
  | unitBusy {word : Word} {u : UnitId} (hunit : selectUnit word = some u) (hbusy : unitIsBusy u s = true) :
    RefusedInput s (.command word) (.unitBusy u)
  | sinkNotExposed {x : SinkTxn} (howned : s.w.attached = true) (hexposed : s.sink.exposed = false) :
    RefusedInput s (.hostSink x) (.streamNotExposed .writer)
  | sourceNotExposed (howned : s.r.attached = true) (hexposed : s.source.exposed = false) :
    RefusedInput s .hostSource (.streamNotExposed .reader)
  | sinkOwned {as : List SinkAnswer} (howned : s.w.attached = true) :
    RefusedInput s (.connectSink as) (.streamOwned .writer)
  | sourceOwned {as : List SourceAnswer} (howned : s.r.attached = true) :
    RefusedInput s (.connectSource as) (.streamOwned .reader)

/-- An input is refused exactly where the spec gives no step for it. -/
theorem takeInput_refused_iff {x : Input} {s : State} {r : Refusal} :
    takeInput x s = .refused r ↔ RefusedInput s x r := by
  constructor
  · intro h
    cases x with
    | command word =>
      obtain ⟨u, rfl, hunit, hbusy⟩ := issueWord_refused_iff.mp h
      exact .unitBusy hunit hbusy
    | hostSink x =>
      obtain ⟨rfl, howned, hexposed⟩ := hostUsesSink_refused_iff.mp h
      exact .sinkNotExposed howned hexposed
    | hostSource =>
      obtain ⟨rfl, howned, hexposed⟩ := hostUsesSource_refused_iff.mp h
      exact .sourceNotExposed howned hexposed
    | connectSink as =>
      obtain ⟨rfl, howned⟩ := connectSink_refused_iff.mp h
      exact .sinkOwned howned
    | connectSource as =>
      obtain ⟨rfl, howned⟩ := connectSource_refused_iff.mp h
      exact .sourceOwned howned
    | sinkAnswer _ | sourceAnswer _ | powerOn => cases h
  · rintro (⟨hunit, hbusy⟩ | ⟨howned, hexposed⟩ | ⟨howned, hexposed⟩ | howned | howned)
    · exact issueWord_refused_iff.mpr ⟨_, rfl, hunit, hbusy⟩
    · exact hostUsesSink_refused_iff.mpr ⟨rfl, howned, hexposed⟩
    · exact hostUsesSource_refused_iff.mpr ⟨rfl, howned, hexposed⟩
    · exact connectSink_refused_iff.mpr ⟨rfl, howned⟩
    · exact connectSource_refused_iff.mpr ⟨rfl, howned⟩

/-- A refusal does not look at the inputs that come later. -/
theorem refusedInput_setInputs {s : State} {xs : List Input} {x : Input} {r : Refusal} :
    RefusedInput (s.setInputs xs) x r ↔ RefusedInput s x r := by
  constructor
  all_goals
    intro h
    cases h <;> constructor <;> assumption

/-- A step refuses what its next input is refused for. -/
theorem step_refused_iff {s : State} {r : Refusal} :
    step s = .refused r ↔ ∃ x, s.inputs.head? = some x ∧ RefusedInput s x r := by
  cases hin : s.inputs with
  | nil => simp [step_of_no_input hin]
  | cons x rest => simp [step_of_input hin, takeInput_refused_iff, refusedInput_setInputs]

/-! ### The obligations -/

/-- Settles O3: a step on a word issues it, and loading puts the words first. -/
theorem stepRunsTheDecodedCommand : Obligations.StepRunsTheDecodedCommand := by
  unfold Obligations.StepRunsTheDecodedCommand
  refine ⟨fun s word rest i hin hd => ?_, fun s words => rfl⟩
  rw [step_of_command hin, issueWord_of_instr hd]
  rfl

/-- Settles O8: the illegal word raises its fault in a state that differs from `s` in the inputs and the interval. -/
theorem illegalWordRaisesIllegalCommand : Obligations.IllegalWordRaisesIllegalCommand := by
  unfold Obligations.IllegalWordRaisesIllegalCommand
  intro s word rest why hin hd hf hidle
  obtain ⟨y, hraise, hy⟩ := illegalWord_raises (s := s.setInputs rest) hf hidle
  refine ⟨_, by rw [step_of_command hin, issueWord_of_illegal hd, hraise], rfl, ?_⟩
  obtain rfl | ⟨u, rfl⟩ := hy
  · simp [responseWord_fault, FaultCode.code]
  · cases u <;> simp [responseWord_fault, FaultCode.code]

/-- Settles O51: every command is issued to its unit, which refuses it while it is busy. -/
theorem unitTakesOneCommandAtATime : Obligations.UnitTakesOneCommandAtATime := by
  unfold Obligations.UnitTakesOneCommandAtATime
  refine ⟨fun i s hbusy => ?_, fun s hin => step_of_no_input hin⟩
  obtain ⟨checks, eff, hexec⟩ := exec_eq_commandTo i s
  rw [hexec, commandTo_busy hbusy]

/-- Settles O59: a step that gives no next state refuses its input, there being no fault to end in; which inputs it
refuses, and how, is read off `RefusedInput`. -/
theorem stepStopsOnlyOnRefusedInputs : Obligations.StepStopsOnlyOnRefusedInputs := by
  unfold Obligations.StepStopsOnlyOnRefusedInputs
  intro s
  refine ⟨?_, fun u => ?_, ?_, ?_, ?_, ?_⟩
  · cases hstep : step s with
    | next t => exact .inl ⟨t, rfl⟩
    | fault f => cases f
    | refused r =>
      obtain ⟨x, -, hrefused⟩ := step_refused_iff.mp hstep
      cases hrefused <;> simp
  all_goals rw [step_refused_iff]; constructor
  · rintro ⟨_, hin, hrefused⟩
    cases hrefused with
    | unitBusy hunit hbusy => exact ⟨_, hin, hunit, hbusy⟩
  · rintro ⟨word, hin, hunit, hbusy⟩
    exact ⟨_, hin, .unitBusy hunit hbusy⟩
  · rintro ⟨_, hin, hrefused⟩
    cases hrefused with
    | sinkNotExposed howned hexposed => exact ⟨⟨_, hin⟩, howned, hexposed⟩
  · rintro ⟨⟨x, hin⟩, howned, hexposed⟩
    exact ⟨_, hin, .sinkNotExposed howned hexposed⟩
  · rintro ⟨_, hin, hrefused⟩
    cases hrefused with
    | sourceNotExposed howned hexposed => exact ⟨hin, howned, hexposed⟩
  · rintro ⟨hin, howned, hexposed⟩
    exact ⟨_, hin, .sourceNotExposed howned hexposed⟩
  · rintro ⟨_, hin, hrefused⟩
    cases hrefused with
    | sinkOwned howned => exact ⟨⟨_, hin⟩, howned⟩
  · rintro ⟨⟨as, hin⟩, howned⟩
    exact ⟨_, hin, .sinkOwned howned⟩
  · rintro ⟨_, hin, hrefused⟩
    cases hrefused with
    | sourceOwned howned => exact ⟨⟨_, hin⟩, howned⟩
  · rintro ⟨⟨as, hin⟩, howned⟩
    exact ⟨_, hin, .sourceOwned howned⟩

end Sys2Proof.Machine
end

section
/-! The writer's data commands on given answers (R80 to R88, R91, R92): O17 to O25. -/

namespace Sys2Proof.Machine

open Sys2Proof

/-! ### The checks of a command -/

/-- A command of an idle unit finds a latched fault and is answered with it (R155, R156 step 1). -/
theorem commandTo_latched {u : UnitId} {checks : List Check} {eff : State → State} {s : State}
    (hidle : unitIsBusy u s = false) (hf : s.fault ≠ 0#8) :
    commandTo u checks eff s = .next (respondFault (some u) (closeInterval u s)) := by
  rw [commandTo_idle hidle, commandTo_faulted hf (commandTo_idle hidle)]

/-- Checks that none of which applies may be left out at the end (R156). -/
theorem firstFault_append_pass {more : List Check} (h : firstFault more = none) (cs : List Check) :
    firstFault (cs ++ more) = firstFault cs := by
  induction cs with
  | nil => exact h
  | cons c cs ih => simp [firstFault, ih]

/-- Of a command's checks only the first that applies matters (R156). -/
theorem commandTo_congr_checks {u : UnitId} {checks checks' : List Check} {eff : State → State} {s : State}
    (h : firstFault checks = firstFault checks') : commandTo u checks eff s = commandTo u checks' eff s := by
  simp only [commandTo, afterChecks, h]

/-- The first check of R80 that applies to a detached writer (R156 step 3). -/
theorem writerDataChecks_detached {s : State} {more : List Check} (hfree : s.w.attached = false) :
    firstFault (writerDataChecks s ++ more) = some .notAttached := by
  simp [firstFault, writerDataChecks, notAttachedCheck, hfree]

/-- The first check of R80 that applies to an attached writer that has failed (R156 step 4). -/
theorem writerDataChecks_failed {s : State} {more : List Check} (hatt : s.w.attached = true)
    (hfailed : s.w.failed = true) : firstFault (writerDataChecks s ++ more) = some .useAfterFailure := by
  simp [firstFault, writerDataChecks, notAttachedCheck, hatt, hfailed]

/-- The width and headroom checks of W.BITS pass within their ranges (R82). -/
theorem wBitsChecks_pass {filled w : Nat} (hw : w ≤ 15) (hroom : filled + w ≤ 32) :
    firstFault [widthCheck w Config.wMaxWidth, headroomCheck filled w] = none := by
  have hhead : (headroomCheck filled w).applies = false := by simpa [headroomCheck] using hroom
  simp [firstFault_eq_none_iff, widthCheck_applies.mpr hw, hhead]

/-- W.BITS on a ready writer passes its checks and has its effect (R80, R82, R83). -/
theorem exec_wBits_ready {s : State} {w : Nat} (v : Half) (hready : WriterReady s) (hw : w ≤ 15)
    (hroom : s.w.filled + w ≤ 32) :
    exec (.wBits w v) s = .next (writeField w v (closeInterval .writer s)) := by
  obtain ⟨hfault, hidle, hatt, hfailed⟩ := hready
  exact commandTo_pass (by simp [unitIsBusy, hidle]) hfault
    (writerDataChecks_pass.mpr ⟨hatt, hfailed, wBitsChecks_pass hw hroom⟩)

/-- W.FLUSH on a ready writer passes its checks and has its effect (R80, R86). -/
theorem exec_wFlush_ready {s : State} (hready : WriterReady s) :
    exec .wFlush s = .next (drainAndFlush (closeInterval .writer s)) := by
  obtain ⟨hfault, hidle, hatt, hfailed⟩ := hready
  exact commandTo_pass (by simp [unitIsBusy, hidle]) hfault
    (writerDataChecks_pass (more := []) |>.mpr ⟨hatt, hfailed, rfl⟩)

/-! ### W.BITS -/

/-- Settles O17: the checks pass and the write stays below the threshold. -/
theorem wBitsBelowThresholdAppends : Obligations.WBitsBelowThresholdAppends := by
  unfold Obligations.WBitsBelowThresholdAppends
  intro s w v hready hw hbelow
  rw [exec_wBits_ready v hready hw (by omega), writeField_below (s := closeInterval .writer s) hbelow]
  rfl

/-- W.BITS at 16 bits or more with the emission accepted: one write of the low 16 bits, then shift and subtract (R83). -/
theorem exec_wBits_emits {s : State} {w : Nat} (v : Half) {rest : List SinkAnswer} (hready : WriterReady s)
    (hw : w ≤ 15) (hfilled : s.w.filled ≤ 15) (hmany : 16 ≤ s.w.filled + w) (hanswers : s.sink.answers = .ok :: rest) :
    exec (.wBits w v) s = .next { s with
      w := { s.w with acc := appendField s.w.acc s.w.filled w v >>> 16, filled := s.w.filled + w - 16 }
      sink := {
        answers := rest
        log := s.sink.log ++ [{
          issuer := .unit
          txn := .write16 ((appendField s.w.acc s.w.filled w v).setWidth 16)
          answer := .ok }]
        exposed := false }
      responses := s.responses ++ [okResponse .writer 0#16] } := by
  obtain ⟨hfault, hidle, -⟩ := id hready
  rw [exec_wBits_ready v hready hw (by omega),
    writeField_emits (s := closeInterval .writer s) hfault hmany hanswers, emitChunkOf_eq, ← hidle]
  rfl

/-- Settles O18: the accumulator after the append, whose bits are those of `appendField_getLsbD`, is emitted. -/
theorem wBitsAtThresholdEmits : Obligations.WBitsAtThresholdEmits := by
  unfold Obligations.WBitsAtThresholdEmits
  intro s w v rest hready hw hfilled hmany hanswers
  exact ⟨appendField s.w.acc s.w.filled w v, fun k hk => appendField_getLsbD _ _ v (by omega) hk,
    exec_wBits_emits v hready hw hfilled hmany hanswers⟩

/-- Settles O19: the checks pass, the write reaches the threshold and its emission fails. -/
theorem wBitsSinkErrorFailsTheWriter : Obligations.WBitsSinkErrorFailsTheWriter := by
  unfold Obligations.WBitsSinkErrorFailsTheWriter
  intro s w v kept rest hready hw hfilled hmany hanswers
  obtain ⟨hfault, hidle, -⟩ := id hready
  refine ⟨_, exec_wBits_ready v hready hw (by omega), ?_⟩
  rw [writeField_fails (s := closeInterval .writer s) hfault hmany hanswers, emitChunkOf_eq, ← hidle]
  exact ⟨rfl, hmany, by dsimp only [closeInterval_writer_w]; omega, rfl, rfl, rfl, rfl, rfl, rfl, rfl⟩

/-- The mask of a write leaves nothing of the value's bits at and above the width (R91). -/
theorem and_mask_congr {w : Nat} {v v' : Half} (h : ∀ k, k < w → v.getLsbD k = v'.getLsbD k) :
    v &&& mask 16 w = v' &&& mask 16 w := by
  refine BitVec.eq_of_getLsbD_eq fun k _ => ?_
  simp only [mask, BitVec.getLsbD_and, BitVec.getLsbD_ofNat, Nat.testBit_two_pow_sub_one]
  by_cases hk : k < w
  · rw [h k hk]
  · simp [hk]

/-- Settles O22: the value enters the command under the mask only. -/
theorem wBitsIgnoresBitsAboveTheWidth : Obligations.WBitsIgnoresBitsAboveTheWidth := by
  unfold Obligations.WBitsIgnoresBitsAboveTheWidth
  intro s w v v' h
  have hfield : writeField w v = writeField w v' := by
    funext x
    simp only [writeField, appendField, and_mask_congr h]
  simp only [exec, execWBits, hfield]

/-- Settles O23: the append of no bits changes nothing; the checks come first, in the order of R156. -/
theorem wBitsOfWidthZeroWritesNothing : Obligations.WBitsOfWidthZeroWritesNothing := by
  unfold Obligations.WBitsOfWidthZeroWritesNothing
  refine ⟨fun s v hready hfilled => ?_, fun s v hfault hidle hfree => ?_, fun s v hfault hidle hatt hfailed => ?_,
    fun s v hfault hidle => ?_⟩
  · rw [wBitsBelowThresholdAppends s 0 v hready (by omega) (by omega)]
    simp
  · exact ⟨_, commandTo_fault (by simp [unitIsBusy, hidle]) hfault (writerDataChecks_detached hfree), rfl, rfl⟩
  · exact ⟨_, commandTo_fault (by simp [unitIsBusy, hidle]) hfault (writerDataChecks_failed hatt hfailed), rfl, rfl⟩
  · refine ⟨_, commandTo_latched (by simp [unitIsBusy, hidle]) hfault, rfl, rfl, ?_⟩
    simp [responseWord_fault]

/-! ### W.BIT -/

/-- Settles O21: the checks W.BITS makes beyond those of W.BIT pass for one bit. -/
theorem wBitIsWBitsOfWidthOne : Obligations.WBitIsWBitsOfWidthOne := by
  unfold Obligations.WBitIsWBitsOfWidthOne
  intro s b hfilled
  exact commandTo_congr_checks (firstFault_append_pass (wBitsChecks_pass (by decide) (by omega)) _).symm

/-- The field of W.BIT is its bit (R85). -/
theorem appendField_bit (acc : Word) (filled : Nat) (b : Bool) :
    appendField acc filled 1 (if b then 1#16 else 0#16) = acc ||| ((if b then 1#32 else 0#32) <<< filled) := by
  cases b <;> rfl

/-- Settles O20: both clauses are those of W.BITS with width 1. -/
theorem wBitAppendsOneBit : Obligations.WBitAppendsOneBit := by
  unfold Obligations.WBitAppendsOneBit
  refine ⟨fun s b hready hfew => ?_, fun s b rest hready hfull hanswers => ⟨_, rfl, ?_⟩⟩
  · rw [wBitIsWBitsOfWidthOne s b (by omega), wBitsBelowThresholdAppends s 1 _ hready (by omega) (by omega),
      ← appendField_bit]
    rfl
  · rw [wBitIsWBitsOfWidthOne s b (by omega), exec_wBits_emits _ hready (by omega) (by omega) (by omega) hanswers,
      hfull, appendField_bit]

/-! ### W.FLUSH -/

/-- The state once W.FLUSH has drained `k` bytes (R86). -/
def State.afterDrains (s : State) (k : Nat) : State :=
  { s with
    w := { s.w with
      acc := s.w.acc >>> (8 * k), filled := s.w.filled - 8 * k, busy := some (nextDrain (s.w.filled - 8 * k)) }
    sink := { s.sink with
      log := s.sink.log ++ (List.range k).map
        (fun j => { issuer := .unit, txn := .write8 ((s.w.acc >>> (8 * j)).setWidth 8), answer := .ok }) } }

/-- W.FLUSH of a ready writer whose first `k` bytes are accepted (R80, R86). -/
theorem exec_wFlush_drains {s : State} {k : Nat} {rest : List SinkAnswer} (hready : WriterReady s)
    (hk : k ≤ (s.w.filled + 7) / 8) (hanswers : s.sink.answers = List.replicate k .ok ++ rest) :
    exec .wFlush s = .next (pumpWriter rest ((closeInterval .writer s).afterDrains k)) := by
  obtain ⟨hfault, -⟩ := id hready
  rw [exec_wFlush_ready hready, drainAndFlush, runWriter, State.setW_sink, closeInterval_writer_sink]
  dsimp only
  rw [hanswers]
  exact congrArg _ (pumpWriter_drains k ((closeInterval .writer s).setW
    { s.w with busy := some (nextDrain s.w.filled) }) rest hfault rfl hk)

/-- The request at the head of W.FLUSH's loop (R86). -/
theorem nextDrain_request (filled : Nat) (w : WriterUnit) :
    (nextDrain filled).request w = if 0 < filled then .write8 (w.acc.setWidth 8) else .flush := by
  unfold nextDrain
  split
  · exact congrArg SinkTxn.write8 (drainByte_eq w.acc)
  · rfl

/-- An accepted flush request ends the command (R86). -/
theorem pumpWriter_flush {s : State} (hb : s.w.busy = some .flush) (hf : s.fault = 0#8) (rest : List SinkAnswer) :
    pumpWriter (.ok :: rest) s = setSinkAnswers rest (writerOk .flush (recordSink .unit .flush .ok s)) := by
  rw [pumpWriter_cons hb, writerAnswered_clear hf]
  exact pumpWriter_idle rfl rest

/-- A failed transaction ends the command (R84, R87). -/
theorem pumpWriter_error {s : State} {p : WriterWait} (hb : s.w.busy = some p) (hf : s.fault = 0#8) (kept : Retained)
    (rest : List SinkAnswer) :
    pumpWriter (.ioError kept :: rest) s =
      setSinkAnswers rest (writerError (recordSink .unit (p.request s.w) (.ioError kept) s)) := by
  rw [pumpWriter_cons hb, writerAnswered_clear hf]
  exact pumpWriter_idle rfl rest

/-- Settles O24: after the bytes nothing is left in the accumulator, and the flush request ends the command. -/
theorem wFlushDrainsEveryByteThenFlushes : Obligations.WFlushDrainsEveryByteThenFlushes := by
  unfold Obligations.WFlushDrainsEveryByteThenFlushes
  intro s rest hready hfilled hacc hanswers
  obtain ⟨hfault, hidle, -⟩ := id hready
  have hempty : s.w.filled - 8 * ((s.w.filled + 7) / 8) = 0 := by omega
  have hzero : s.w.acc >>> (8 * ((s.w.filled + 7) / 8)) = 0#32 := by
    have hlt := ushiftRight_lt (8 * ((s.w.filled + 7) / 8)) hacc
    rw [hempty] at hlt
    exact BitVec.eq_of_toNat_eq (by simpa using hlt)
  have hflush : ((closeInterval .writer s).afterDrains ((s.w.filled + 7) / 8)).w.busy = some .flush := by
    simp [State.afterDrains, hempty, nextDrain]
  rw [List.replicate_succ', List.append_assoc] at hanswers
  rw [exec_wFlush_drains hready le_rfl hanswers, List.singleton_append, pumpWriter_flush hflush hfault]
  simp only [State.afterDrains, closeInterval_writer_w, hempty, hzero]
  rw [hidle, ← List.append_assoc]
  rfl

/-- Settles O25: the bytes before the failing transaction are drained; the failure ends the command. -/
theorem wFlushSinkErrorFailsTheWriter : Obligations.WFlushSinkErrorFailsTheWriter := by
  unfold Obligations.WFlushSinkErrorFailsTheWriter
  intro s k kept rest hready hfilled hk hanswers
  obtain ⟨hfault, hidle, -⟩ := id hready
  have hleft : 0 < s.w.filled - 8 * k ↔ k < (s.w.filled + 7) / 8 := by omega
  have hlast : ((closeInterval .writer s).afterDrains k).w.busy = some (nextDrain (s.w.filled - 8 * k)) := rfl
  rw [exec_wFlush_drains hready hk hanswers, pumpWriter_error hlast hfault, nextDrain_request]
  simp only [hleft]
  rw [hidle, ← List.append_assoc]
  rfl

end Sys2Proof.Machine
end

section
/-! No bit of the writer is lost, repeated or reordered (R89): O27 and O26. -/

namespace Sys2Proof.Machine

open Sys2Proof

/-! ### The bits of the writer's accumulator -/

/-- The bits at and above the count are clear (R24). -/
theorem getLsbD_of_filled_le {acc : Word} {filled k : Nat} (hacc : acc.toNat < 2 ^ filled) (hk : filled ≤ k) :
    acc.getLsbD k = false :=
  Nat.testBit_lt_two_pow (lt_of_lt_of_le hacc (Nat.pow_le_pow_right (by decide) hk))

/-- An append puts the bits of its field after those held (R23, R83). -/
theorem bitsLsb_appendField {acc : Word} {filled w : Nat} (v : Half) (hacc : acc.toNat < 2 ^ filled) (hw : w ≤ 16)
    (hroom : filled + w ≤ 32) :
    bitsLsb (filled + w) (appendField acc filled w v) = bitsLsb filled acc ++ bitsLsb w v := by
  refine List.ext_getElem (by simp) fun k hk _ => ?_
  rw [bitsLsb_length] at hk
  rw [List.getElem_append]
  simp only [bitsLsb, List.getElem_map, List.getElem_range, List.length_map, List.length_range,
    appendField_getLsbD acc filled v hw (show k < 32 by omega)]
  split
  next hold => simp [show ¬ filled ≤ k by omega]
  next hnew => simp [getLsbD_of_filled_le hacc (show filled ≤ k by omega), hk, show filled ≤ k by omega]

/-- From the count on the accumulator holds zeros (R24). -/
theorem bitsLsb_of_filled_le {acc : Word} {filled n : Nat} (hacc : acc.toNat < 2 ^ filled) (hn : filled ≤ n) :
    bitsLsb n acc = bitsLsb filled acc ++ List.replicate (n - filled) false := by
  refine List.ext_getElem (by simp; omega) fun k _ _ => ?_
  rw [List.getElem_append]
  split
  next hold => simp [bitsLsb]
  next hnew =>
    rw [bitsLsb_length] at hnew
    simp [bitsLsb, getLsbD_of_filled_le hacc (show filled ≤ k by omega)]

/-- An emission takes the first 16 bits from the front (R43, R83). -/
theorem bitsLsb_emission (acc : Word) {filled : Nat} (h : 16 ≤ filled) :
    streamBits (SinkTxn.write16 (emitChunkOf acc)).bytes ++ bitsLsb (filled - 16) (acc >>> 16) =
      bitsLsb filled acc := by
  rw [streamBits_write16, emitChunkOf_eq, bitsLsb_setWidth 16 acc le_rfl, ← bitsLsb_add,
    Nat.add_sub_of_le h]

/-- The zero bits that fill `filled` bits to whole bytes (R89). -/
def padding (filled : Nat) : List Bool := List.replicate ((8 - filled % 8) % 8) false

/-- A drained byte takes the first 8 bits of the buffer and its padding from the front (R43, R86). -/
theorem bitsLsb_drain {acc : Word} {filled : Nat} (hacc : acc.toNat < 2 ^ filled) (h : 0 < filled) :
    bitsLsb 8 (drainByte acc) ++
        (bitsLsb (filled - min 8 filled) (acc >>> 8) ++ padding (filled - min 8 filled)) =
      bitsLsb filled acc ++ padding filled := by
  rw [drainByte_eq, bitsLsb_setWidth 8 acc le_rfl]
  by_cases hfew : filled < 8
  · rw [min_eq_right hfew.le, Nat.sub_self, bitsLsb_of_filled_le hacc hfew.le]
    simp [bitsLsb, padding, show (8 - filled % 8) % 8 = 8 - filled by omega]
  · rw [min_eq_left (by omega), ← List.append_assoc, ← bitsLsb_add, Nat.add_sub_of_le (by omega), padding, padding,
      show (8 - (filled - 8) % 8) % 8 = (8 - filled % 8) % 8 by omega]

/-! ### The bits a command gives -/

/-- The bits a command gives the writer, where `count` were given before (R89). -/
def bitsGiven (count : Nat) (i : Instr) : List Bool :=
  match i with
  | .wBit b => [b]
  | .wBits w v => bitsLsb w v
  | .wFlush => padding count
  | .wNew | .wInner | .wUnwrap | .rNew | .rBit | .rBits _ | .rPeek _ | .rSkip _ | .rReset | .rInner | .rUnwrap => []

theorem givenBits_eq (g : List Bool) (i : Instr) : givenBits g i = g ++ bitsGiven g.length i := by
  cases i <;> simp [givenBits, bitsGiven, padding]

/-- Of the count only the place in the byte matters (R89). -/
theorem bitsGiven_congr {m n : Nat} (h : m % 8 = n % 8) (i : Instr) : bitsGiven m i = bitsGiven n i := by
  cases i <;> simp [bitsGiven, padding, h]

/-- The bits offered to the sink, and after them those the writer holds (R89). -/
def State.offeredAndHeld (s : State) : List Bool := streamBits s.sink.offered ++ s.w.buffered

/-- The writer's last command, if any, has responded and nothing of the block has failed (R89). -/
structure State.Settled (s : State) : Prop where
  fault : s.fault = 0#8
  failed : s.w.failed = false
  idle : s.w.busy = none

/-- Between commands the writer holds at most 15 bits, with zeros above them (R24, R25). -/
structure WriterUnit.Tidy (w : WriterUnit) : Prop where
  acc : w.acc.toNat < 2 ^ w.filled
  filled : w.filled ≤ 15

/-- From `s` to `t` the writer was given the bits `given`, and stays within its bounds (R24, R25, R89). -/
structure GivesBits (given : List Bool) (s t : State) : Prop where
  tidy : t.w.Tidy
  bits : t.offeredAndHeld = s.offeredAndHeld ++ given

/-- What leaves the writer and the sink's log as they are gives no bit. -/
theorem GivesBits.of_same {s t : State} (hs : s.w.Tidy) (hw : t.w = s.w) (hlog : t.sink.log = s.sink.log) :
    GivesBits [] s t :=
  ⟨by rwa [hw], by simp [State.offeredAndHeld, SinkPort.offered, hw, hlog]⟩

/-- A transaction of the writer offers its bytes (R89). -/
theorem offered_append_unit (p : SinkPort) (x : SinkTxn) (a : SinkAnswer) :
    ({ p with log := p.log ++ [{ issuer := .unit, txn := x, answer := a }] } : SinkPort).offered =
      p.offered ++ x.bytes := by
  simp [SinkPort.offered]

/-! ### Writes -/

/-- A write that ends without error gives the bits of its field (R83). -/
theorem writeField_givesBits {w : Nat} {v : Half} {s : State} (hf : s.fault = 0#8) (hs : s.w.Tidy) (hw : w ≤ 15)
    (ht : (writeField w v s).Settled) : GivesBits (bitsLsb w v) s (writeField w v s) := by
  obtain ⟨hacc, hfilled⟩ := hs
  have happend := bitsLsb_appendField v hacc (show w ≤ 16 by omega) (by omega)
  have hlt := appendField_lt v hacc (show w ≤ 16 by omega)
  by_cases hfew : s.w.filled + w < 16
  · rw [writeField_below hfew]
    exact ⟨⟨hlt, by simp; omega⟩, by simp [State.offeredAndHeld, WriterUnit.buffered, happend]⟩
  · have hmany : 16 ≤ s.w.filled + w := by omega
    match hanswers : s.sink.answers with
    | [] =>
      have hwaits := ht.idle
      rw [writeField_atThreshold hmany, runWriter, State.setW_sink, hanswers] at hwaits
      cases hwaits
    | .ioError kept :: rest =>
      have hfailed := ht.failed
      rw [writeField_fails hf hmany hanswers] at hfailed
      cases hfailed
    | .ok :: rest =>
      rw [writeField_emits hf hmany hanswers]
      refine ⟨⟨ushiftRight_lt 16 hlt, by dsimp only; omega⟩, ?_⟩
      have hoffered := offered_append_unit { s.sink with answers := rest }
        (.write16 (emitChunkOf (appendField s.w.acc s.w.filled w v))) .ok
      simp only [State.offeredAndHeld, WriterUnit.buffered]
      rw [hoffered, streamBits_append, List.append_assoc, bitsLsb_emission _ hmany, happend, List.append_assoc]
      rfl

/-! ### The flush -/

/-- An accepted transaction offers its bytes, and the writer then holds what its shift leaves (R83, R86). -/
theorem offeredAndHeld_writerOk (p : WriterWait) (s : State) :
    (writerOk p (recordSink .unit (p.request s.w) .ok s)).offeredAndHeld =
      streamBits s.sink.offered ++ (streamBits (p.request s.w).bytes ++ (writerOk p s).w.buffered) := by
  have hoffered := offered_append_unit s.sink (p.request s.w) .ok
  have hbuffered : (writerOk p (recordSink .unit (p.request s.w) .ok s)).w = (writerOk p s).w := by cases p <;> rfl
  obtain ⟨-, -, -, hsink, -⟩ := writerOk_frame p (recordSink .unit (p.request s.w) .ok s)
  rw [State.offeredAndHeld, hsink, recordSink_sink, hoffered, hbuffered, streamBits_append, List.append_assoc]

/-- A W.FLUSH none of whose transactions failed, between two answers: the bits offered, those held and the padding still
to come are `bits`, and the command waits at the head of its loop or is over (R86, R89). -/
structure Flushing (bits : List Bool) (s : State) : Prop where
  tidy : s.w.Tidy
  head : s.w.busy = some (nextDrain s.w.filled) ∨ s.w.busy = none ∧ s.w.filled = 0
  bits : s.offeredAndHeld ++ padding s.w.filled = bits

/-- An accepted byte or flush request keeps the bits (R86). -/
theorem writerOk_flushing {bits : List Bool} {p : WriterWait} {s : State} (hb : s.w.busy = some p)
    (h : Flushing bits s) : Flushing bits (writerOk p (recordSink .unit (p.request s.w) .ok s)) := by
  obtain ⟨⟨hacc, hfilled⟩, hhead, hbits⟩ := h
  have hp : p = nextDrain s.w.filled := by simpa [hb] using hhead
  have hkept := offeredAndHeld_writerOk p s
  by_cases hempty : s.w.filled = 0
  · obtain rfl : p = .flush := by simp [hp, hempty, nextDrain]
    refine ⟨⟨hacc, hfilled⟩, .inr ⟨rfl, hempty⟩, ?_⟩
    rw [hkept, ← hbits]
    rfl
  · have hpos : 0 < s.w.filled := by omega
    obtain rfl : p = .drain := by simp [hp, hpos, nextDrain]
    have hshift : s.w.filled - min 8 s.w.filled = s.w.filled - 8 := by omega
    refine ⟨⟨?_, ?_⟩, .inl rfl, ?_⟩
    · simpa [writerOk, hshift] using ushiftRight_lt 8 hacc
    · simp [writerOk]
      omega
    · rw [hkept, ← hbits, State.offeredAndHeld, List.append_assoc _ _ (padding s.w.filled)]
      simpa [WriterWait.request, SinkTxn.bytes, writerOk, WriterUnit.buffered] using bitsLsb_drain hacc hpos

/-- An answer keeps a flush at its loop, or fails it (R86, R87). -/
theorem writerAnswered_flushing {bits : List Bool} {p : WriterWait} {a : SinkAnswer} {s : State} (hf : s.fault = 0#8)
    (hb : s.w.busy = some p) (h : s.w.failed = false → Flushing bits s)
    (hanswered : (writerAnswered p a s).w.failed = false) : Flushing bits (writerAnswered p a s) := by
  rw [writerAnswered_clear hf] at hanswered ⊢
  cases a with
  | ioError kept => cases hanswered
  | ok => exact writerOk_flushing hb (h (by cases p <;> exact hanswered))

/-- W.FLUSH that ends without error gives the padding of the bits held (R86). -/
theorem drainAndFlush_givesBits {s : State} (hf : s.fault = 0#8) (hs : s.w.Tidy) (ht : (drainAndFlush s).Settled) :
    GivesBits (padding s.w.filled) s (drainAndFlush s) := by
  have hpump : (drainAndFlush s).fault = 0#8 ∧ ((drainAndFlush s).w.failed = false →
      Flushing (s.offeredAndHeld ++ padding s.w.filled) (drainAndFlush s)) := by
    refine pumpWriter_induct (P := fun t => t.fault = 0#8 ∧ (t.w.failed = false → Flushing _ t))
      (fun _ _ ⟨hfault, h⟩ => ⟨hfault, fun hfailed => ?_⟩) (fun p a t hb ⟨hfault, h⟩ => ⟨?_, ?_⟩) s.sink.answers
      (s.setW { s.w with busy := some (nextDrain s.w.filled) })
      ⟨hf, fun _ => ⟨⟨hs.acc, hs.filled⟩, .inl rfl, rfl⟩⟩
    · obtain ⟨htidy, hhead, hbits⟩ := h hfailed
      exact ⟨htidy, hhead, hbits⟩
    · obtain ⟨-, -, hfault', -⟩ := writerAnswered_frame p a t
      rw [hfault', hfault]
    · exact writerAnswered_flushing hfault hb h
  obtain ⟨htidy, hhead, hbits⟩ := hpump.2 ht.failed
  have hempty : (drainAndFlush s).w.filled = 0 := by simpa [ht.idle] using hhead
  refine ⟨htidy, ?_⟩
  rw [← hbits, hempty]
  simp [padding]

/-! ### Commands -/

/-- A command after which no fault is latched passed its checks and had its effect (R155, R156). -/
theorem commandTo_passed {u : UnitId} {checks : List Check} {eff : State → State} {s t : State}
    (h : commandTo u checks eff s = .next t) (ht : t.fault = 0#8) :
    unitIsBusy u s = false ∧ s.fault = 0#8 ∧ firstFault checks = none ∧ t = eff (closeInterval u s) := by
  obtain ⟨hidle, ⟨hf, rfl⟩ | ⟨-, c, -, rfl⟩ | ⟨hf, hpass, rfl⟩⟩ := commandTo_cases h
  · exact absurd (by cases u <;> exact ht) hf
  · exact absurd ht c.code_range.1
  · exact ⟨hidle, hf, hpass, rfl⟩

/-- A data command of the writer after which no fault is latched found the writer unfailed and had its effect (R80). -/
theorem writerData_passed {more : List Check} {eff : State → State} {s t : State}
    (h : commandTo .writer (writerDataChecks s ++ more) eff s = .next t) (ht : t.fault = 0#8) :
    s.fault = 0#8 ∧ s.w.failed = false ∧ firstFault more = none ∧ t = eff (closeInterval .writer s) := by
  obtain ⟨-, hf, hpass, heff⟩ := commandTo_passed h ht
  obtain ⟨-, hfailed, hmore⟩ := writerDataChecks_pass.mp hpass
  exact ⟨hf, hfailed, hmore, heff⟩

/-- A command of the reader leaves the writer and its sink alone (R35). -/
theorem exec_reader_keeps_writer {i : Instr} {s t : State} (hu : i.unit = .reader) (h : exec i s = .next t) :
    t.w = s.w ∧ t.sink = s.sink := by
  obtain ⟨-, hreader, -⟩ := commandsLeaveTheOtherUnitAlone i s t h
  exact hreader hu

/-- The end of the interval gives no bit (R137). -/
theorem GivesBits.of_closed {given : List Bool} {s t : State} (h : GivesBits given (closeInterval .writer s) t) :
    GivesBits given s t :=
  ⟨h.tidy, h.bits⟩

theorem exec_wBits_givesBits {w : Nat} {v : Half} {s t : State} (hs : s.w.Tidy) (h : exec (.wBits w v) s = .next t)
    (ht : t.Settled) : GivesBits (bitsLsb w v) s t := by
  obtain ⟨hf, -, hmore, rfl⟩ := writerData_passed (eff := writeField w v) h ht.fault
  have hw : w ≤ 15 := widthCheck_applies.mp ((firstFault_eq_none_iff _).mp hmore _ List.mem_cons_self)
  exact .of_closed (writeField_givesBits hf hs hw ht)

/-- A command that ends without fault, writer error or wait gives the writer its bits (R89). -/
theorem exec_givesBits {i : Instr} {s t : State} (hs : s.w.Tidy) (hnew : i ≠ .wNew) (hunwrap : i ≠ .wUnwrap)
    (h : exec i s = .next t) (ht : t.Settled) : GivesBits (bitsGiven s.w.filled i) s t := by
  cases i with
  | wNew => exact absurd rfl hnew
  | wUnwrap => exact absurd rfl hunwrap
  | wBits w v => exact exec_wBits_givesBits hs h ht
  | wBit b =>
    rw [wBitIsWBitsOfWidthOne s b (by have := hs.filled; omega)] at h
    have hbit : bitsLsb 1 (if b then 1#16 else 0#16) = [b] := by cases b <;> rfl
    simpa only [bitsGiven, hbit] using exec_wBits_givesBits hs h ht
  | wFlush =>
    obtain ⟨hf, -, -, rfl⟩ := writerData_passed (more := []) (eff := drainAndFlush) h ht.fault
    exact .of_closed (drainAndFlush_givesBits (s := closeInterval .writer s) hf hs ht)
  | wInner =>
    obtain ⟨-, -, -, rfl⟩ := commandTo_passed (eff := exposeSink) h ht.fault
    exact .of_same hs rfl rfl
  | rNew | rBit | rBits _ | rPeek _ | rSkip _ | rReset | rInner | rUnwrap =>
    obtain ⟨hw, hsink⟩ := exec_reader_keeps_writer rfl h
    exact .of_same hs hw (by rw [hsink])

/-- Settles O27: the command gives its bits, and of those given before only the place in the byte matters. -/
theorem writerCommandLosesNoBit : Obligations.WriterCommandLosesNoBit := by
  unfold Obligations.WriterCommandLosesNoBit
  intro i s t g hinv hready hnew hunwrap hplace h hfault hfailed hidle
  obtain ⟨hfault', hidle', -, hfailed'⟩ := hready
  have hs : s.w.Tidy := ⟨hinv.accBelowFilled, hinv.filledIdle hfault' hfailed' hidle'⟩
  exact ⟨bitsGiven s.w.filled i, by rw [givenBits_eq, bitsGiven_congr hplace],
    (exec_givesBits hs hnew hunwrap h ⟨hfault, hfailed, hidle⟩).bits⟩

/-! ### Programs -/

/-- Only W.NEW undoes a failure: before another command after which nothing has failed the writer had not (R26, R80). -/
theorem failed_before {i : Instr} {s t : State} (hnew : i ≠ .wNew) (h : exec i s = .next t) (hfault : t.fault = 0#8)
    (hfailed : t.w.failed = false) : s.w.failed = false := by
  cases i with
  | wNew => exact absurd rfl hnew
  | wBit b =>
    obtain ⟨-, hs, -⟩ := writerData_passed (more := []) (eff := writeField 1 (bitValue b)) h hfault
    exact hs
  | wBits w v =>
    obtain ⟨-, hs, -⟩ := writerData_passed (eff := writeField w v) h hfault
    exact hs
  | wFlush =>
    obtain ⟨-, hs, -⟩ := writerData_passed (more := []) (eff := drainAndFlush) h hfault
    exact hs
  | wInner =>
    obtain ⟨-, -, -, rfl⟩ := commandTo_passed (eff := exposeSink) h hfault
    exact hfailed
  | wUnwrap =>
    obtain ⟨-, -, -, rfl⟩ := commandTo_passed (eff := detachWriter) h hfault
    exact hfailed
  | rNew | rBit | rBits _ | rPeek _ | rSkip _ | rReset | rInner | rUnwrap =>
    obtain ⟨hw, -⟩ := exec_reader_keeps_writer rfl h
    exact hw ▸ hfailed

/-- Before a command that ends settled the block was settled: no command clears a fault or ends another's wait (R69,
R155). -/
theorem settled_before {i : Instr} {s t : State} (hnew : i ≠ .wNew) (h : exec i s = .next t) (ht : t.Settled) :
    s.Settled := by
  obtain ⟨checks, eff, hexec⟩ := exec_eq_commandTo i s
  obtain ⟨hfree, hf, -⟩ := commandTo_passed (hexec ▸ h) ht.fault
  refine ⟨hf, failed_before hnew h ht.fault ht.failed, ?_⟩
  cases hu : i.unit with
  | writer => simpa [hu, unitIsBusy] using hfree
  | reader =>
    obtain ⟨hw, -⟩ := exec_reader_keeps_writer hu h
    exact hw ▸ ht.idle

/-- A run of one step more that ends in a state made that step (R21). -/
theorem runFor_succ_next {n : Nat} {s t : State} (h : runFor (n + 1) s = .next t) :
    ∃ u, step s = .next u ∧ runFor n u = .next t := by
  have run_succ : ∀ (M : Host.Core) (x y : M.State), M.run (n + 1) x = .next y →
      ∃ z, M.step x = .next z ∧ M.run n z = .next y := by
    intro M x y hxy
    rw [Host.Core.run] at hxy
    split at hxy
    next z hz => exact ⟨z, hz, hxy⟩
    next => cases hxy
    next => cases hxy
  exact run_succ Sys2Proof.core s t h

/-- A program runs its first command and then the others (R21). -/
theorem runProgram_cons {i : Instr} {program : List Instr} {s t : State} (hi : i.WellFormed)
    (h : runProgram (i :: program) s = .next t) : ∃ u, exec i s = .next u ∧ runProgram program u = .next t := by
  obtain ⟨u, hstep, hrun⟩ := runFor_succ_next h
  have hexec : exec i (loadProgram (program.map encode) s) = .next u := by
    rw [← issueWord_of_instr (decodeOfEncodeIsTheCommand i hi)]
    exact (step_of_command (s := loadProgram ((i :: program).map encode) s) rfl).symm.trans hstep
  obtain ⟨-, hinputs, -⟩ := exec_onlyUnitChanged hexec
  have hload : loadProgram (program.map encode) (u.setInputs s.inputs) = u := by
    calc loadProgram (program.map encode) (u.setInputs s.inputs)
        = u.setInputs (loadProgram (program.map encode) s).inputs := rfl
      _ = u := by rw [← hinputs, State.setInputs_self]
  refine ⟨u.setInputs s.inputs, exec_setInputs (s := loadProgram (program.map encode) s) s.inputs hexec, ?_⟩
  rw [runProgram, hload]
  exact hrun

/-- Before a program without W.NEW that ends settled the block was settled. -/
theorem settled_before_program {program : List Instr} {s t : State}
    (hprogram : ∀ i ∈ program, i.WellFormed ∧ i ≠ .wNew ∧ i ≠ .wUnwrap) (h : runProgram program s = .next t)
    (ht : t.Settled) : s.Settled := by
  induction program generalizing s with
  | nil =>
    cases h
    exact ⟨ht.fault, ht.failed, ht.idle⟩
  | cons i program ih =>
    obtain ⟨hi, hrest⟩ := List.forall_mem_cons.mp hprogram
    obtain ⟨hwf, hnew, -⟩ := hi
    obtain ⟨u, hexec, hrun⟩ := runProgram_cons hwf h
    exact settled_before hnew hexec (ih hrest hrun)

/-- A program that ends settled, run from a writer that has offered and holds the bits `g` after those of whole bytes,
ends with the bits given after those (R89). -/
theorem runProgram_givesBits {program : List Instr} {s t : State} {g : List Bool} {bytes : List Byte}
    (hprogram : ∀ i ∈ program, i.WellFormed ∧ i ≠ .wNew ∧ i ≠ .wUnwrap) (hs : s.w.Tidy)
    (hg : s.offeredAndHeld = streamBits bytes ++ g) (h : runProgram program s = .next t) (ht : t.Settled) :
    t.offeredAndHeld = streamBits bytes ++ program.foldl givenBits g := by
  induction program generalizing s g with
  | nil =>
    cases h
    exact hg
  | cons i program ih =>
    obtain ⟨⟨hwf, hnew, hunwrap⟩, hrest⟩ := List.forall_mem_cons.mp hprogram
    obtain ⟨u, hexec, hrun⟩ := runProgram_cons hwf h
    obtain ⟨htidy, hbits⟩ := exec_givesBits hs hnew hunwrap hexec (settled_before_program hrest hrun ht)
    have hplace : s.w.filled % 8 = g.length % 8 := by
      have hlength := congrArg List.length hg
      simp [State.offeredAndHeld, WriterUnit.buffered] at hlength
      omega
    refine ih hrest htidy ?_ hrun
    rw [hbits, hg, List.append_assoc, bitsGiven_congr hplace, ← givenBits_eq]

/-- Settles O26: by induction on the program from a writer that holds nothing. -/
theorem emissionLaw : Obligations.EmissionLaw := by
  unfold Obligations.EmissionLaw
  intro program s t hprogram hready hacc hempty h hfault hfailed hidle
  have hs : s.w.Tidy := ⟨by simp [hacc, hempty], by omega⟩
  have hheld : s.offeredAndHeld = streamBits s.sink.offered ++ [] := by
    simp [State.offeredAndHeld, WriterUnit.buffered, hempty, bitsLsb]
  exact runProgram_givesBits hprogram hs hheld h ⟨hfault, hfailed, hidle⟩

end Sys2Proof.Machine
end

section
/-! Reads on any answers, and how each ends (R100 to R112, R114): O34, O35, O37 to O41, O43 and O44. -/

namespace Sys2Proof.Machine

open Sys2Proof

/-! ### Fills on any answers -/

/-- A read of `w` bits at `offset` begins `n` fills or more: before each of them too few bits are buffered (R103). -/
def BeginsFills (offset w n : Nat) : Prop := ∀ k < n, 32 - (offset - 8 * k) < w

theorem beginsFills_zero (offset w : Nat) : BeginsFills offset w 0 := fun _ hk => absurd hk (Nat.not_lt_zero _)

theorem beginsFills_succ {offset w n : Nat} :
    BeginsFills offset w (n + 1) ↔ 32 - offset < w ∧ BeginsFills (offset - 8) w n := by
  constructor
  · intro h
    refine ⟨h 0 (by omega), fun k hk => ?_⟩
    have := h (k + 1) (by omega)
    omega
  · rintro ⟨hfirst, hrest⟩ k hk
    cases k with
    | zero => exact hfirst
    | succ k =>
      have := hrest k (by omega)
      omega

/-- A read begins the fills it needs (R103). -/
theorem beginsFills_of_le {offset w n : Nat} (hoffset : offset ≤ 32) (hn : n ≤ fillsNeeded offset w) :
    BeginsFills offset w n := by
  intro k hk
  unfold fillsNeeded at hn
  omega

/-- Every fill of a legal read starts at an offset of 17 or more, so no decrement wraps (R102). -/
theorem BeginsFills.room {offset w n : Nat} (h : BeginsFills offset w n) (hw : w ≤ 16) : 8 * n ≤ offset := by
  cases n with
  | zero => omega
  | succ n =>
    have := h n (by omega)
    omega

theorem State.afterFills_nil (s : State) : s.afterFills [] = s := by
  simp [State.afterFills, ReaderUnit.afterFills]

theorem State.afterFills_cons (s : State) (b : Byte) (bytes : List Byte) :
    s.afterFills (b :: bytes) = (s.afterFills [b]).afterFills bytes := by
  simp [State.afterFills, ReaderUnit.afterFills, Nat.sub_sub, Nat.mul_add, Nat.add_comm]

/-- The byte of a fill leads back to the head of Peek's loop (R101, R103). -/
theorem readerAnswered_byte {s : State} (c : ReadCmd) (b : Byte) (hf : s.fault = 0#8) (hidle : s.r.busy = none) :
    readerAnswered c (.byte b) (beginFill c s) = peekLoop c (s.afterFills [b]) := by
  rw [readerAnswered_clear (s := beginFill c s) hf]
  simp [State.afterFills, ReaderUnit.afterFills, beginFill, recordSource, State.setR, State.setSource, insertByte,
    filledAcc, hidle]

/-- A read takes the bytes of the fills it begins (R101, R103). -/
theorem pumpReader_afterFills {c : ReadCmd} {s : State} {bytes : List Byte} (rest : List SourceAnswer)
    (hf : s.fault = 0#8) (hidle : s.r.busy = none) (h : BeginsFills s.r.offset c.width bytes.length) :
    pumpReader (bytes.map SourceAnswer.byte ++ rest) (peekLoop c s) =
      pumpReader rest (peekLoop c (s.afterFills bytes)) := by
  induction bytes generalizing s with
  | nil => rw [State.afterFills_nil]; rfl
  | cons b bytes ih =>
    obtain ⟨hfew, hrest⟩ := beginsFills_succ.mp h
    rw [peekLoop_of_few hfew, List.map_cons, List.cons_append, pumpReader_cons (c := c) rfl,
      readerAnswered_byte c b hf hidle, State.afterFills_cons s b bytes]
    exact ih (s := s.afterFills [b]) hf hidle hrest

/-- The answers that fail a fill (R46, R112). -/
def SourceAnswer.IsError (a : SourceAnswer) : Prop := a = .endOfStream ∨ a = .ioError

theorem SourceAnswer.IsError.not_byte {a : SourceAnswer} (h : a.IsError) (b : Byte) : a ≠ .byte b := by
  obtain rfl | rfl := h <;> simp

/-- The state after a fill that failed: the shift and decrement stand, nothing is inserted, and the command responds with
the error (R101, R112). -/
def State.afterFailedFill (s : State) (a : SourceAnswer) : State :=
  { s with
    r := { s.r with
      acc := s.r.acc >>> 8
      offset := s.r.offset - 8
      poisoned := s.r.poisoned || s.config.readerFailState == .poison }
    source := { s.source with log := s.source.log ++ [{ issuer := .unit, answer := a }] }
    responses := s.responses ++
      [{ unit := some .reader, word := if a = .endOfStream then 0x02000000#32 else 0x01000000#32 }] }

theorem readerAnswered_error {s : State} (c : ReadCmd) {a : SourceAnswer} (ha : a.IsError) (hf : s.fault = 0#8)
    (hidle : s.r.busy = none) : readerAnswered c a (beginFill c s) = s.afterFailedFill a := by
  rw [readerAnswered_clear (s := beginFill c s) hf]
  have hr : (failFill (recordSource .unit a (beginFill c s))).r = (s.afterFailedFill a).r :=
    congrArg (fun b => { (s.afterFailedFill a).r with busy := b }) hidle.symm
  obtain rfl | rfl := ha
  · exact State.ext rfl rfl hr rfl rfl rfl rfl rfl
  · exact State.ext rfl rfl hr rfl rfl rfl rfl rfl

/-! ### How a read ends -/

/-- How a read of an idle reader ends on given answers: it waits for the byte of a fill, a fill fails, or it finishes
(R103, R112, R162). -/
inductive ReadEnds (c : ReadCmd) (s : State) : List SourceAnswer → State → Prop
  | waits {bytes : List Byte} (hfills : BeginsFills s.r.offset c.width bytes.length)
    (hfew : 32 - (s.afterFills bytes).r.offset < c.width) :
    ReadEnds c s (bytes.map .byte) (setSourceAnswers [] (beginFill c (s.afterFills bytes)))
  | fails {bytes : List Byte} {a : SourceAnswer} {rest : List SourceAnswer}
    (hfills : BeginsFills s.r.offset c.width bytes.length)
    (hfew : 32 - (s.afterFills bytes).r.offset < c.width) (ha : a.IsError) :
    ReadEnds c s (bytes.map .byte ++ a :: rest) (setSourceAnswers rest ((s.afterFills bytes).afterFailedFill a))
  | finishes {bytes : List Byte} {rest : List SourceAnswer} (hfills : BeginsFills s.r.offset c.width bytes.length)
    (henough : c.width ≤ 32 - (s.afterFills bytes).r.offset) :
    ReadEnds c s (bytes.map .byte ++ rest) (setSourceAnswers rest (finishRead c (s.afterFills bytes)))

/-- A read with a byte more before it. -/
theorem ReadEnds.cons {c : ReadCmd} {s t : State} {b : Byte} {answers : List SourceAnswer}
    (hfew : 32 - s.r.offset < c.width) (h : ReadEnds c (s.afterFills [b]) answers t) :
    ReadEnds c s (.byte b :: answers) t := by
  cases h with
  | @waits bytes hfills hfew' =>
    rw [← State.afterFills_cons] at hfew' ⊢
    exact .waits (bytes := b :: bytes) (beginsFills_succ.mpr ⟨hfew, hfills⟩) hfew'
  | @fails bytes a rest hfills hfew' ha =>
    rw [← State.afterFills_cons] at hfew' ⊢
    exact .fails (bytes := b :: bytes) (beginsFills_succ.mpr ⟨hfew, hfills⟩) hfew' ha
  | @finishes bytes rest hfills henough =>
    rw [← State.afterFills_cons] at henough ⊢
    exact .finishes (bytes := b :: bytes) (beginsFills_succ.mpr ⟨hfew, hfills⟩) henough

/-- A read whose bits are buffered finishes and leaves the answers (R103). -/
theorem ReadEnds.finishes_now {c : ReadCmd} {s : State} (answers : List SourceAnswer)
    (henough : ¬ 32 - s.r.offset < c.width) : ReadEnds c s answers (setSourceAnswers answers (finishRead c s)) := by
  have h : ReadEnds c s answers (setSourceAnswers answers (finishRead c (s.afterFills []))) :=
    .finishes (bytes := []) (beginsFills_zero _ _) (by rw [State.afterFills_nil]; omega)
  rwa [State.afterFills_nil] at h

/-- A read whose first fill gets no answer waits (R162). -/
theorem ReadEnds.waits_now {c : ReadCmd} {s : State} (hfew : 32 - s.r.offset < c.width) :
    ReadEnds c s [] (setSourceAnswers [] (beginFill c s)) := by
  have h : ReadEnds c s [] (setSourceAnswers [] (beginFill c (s.afterFills []))) :=
    .waits (bytes := []) (beginsFills_zero _ _) (by rwa [State.afterFills_nil])
  rwa [State.afterFills_nil] at h

/-- A read whose first fill fails ends there (R112). -/
theorem ReadEnds.fails_now {c : ReadCmd} {s : State} {a : SourceAnswer} (rest : List SourceAnswer)
    (hfew : 32 - s.r.offset < c.width) (ha : a.IsError) :
    ReadEnds c s (a :: rest) (setSourceAnswers rest (s.afterFailedFill a)) := by
  have h : ReadEnds c s (a :: rest) (setSourceAnswers rest ((s.afterFills []).afterFailedFill a)) :=
    .fails (bytes := []) (beginsFills_zero _ _) (by rwa [State.afterFills_nil]) ha
  rwa [State.afterFills_nil] at h

/-- A read ends in one of the three ways. -/
theorem pumpReader_readEnds (c : ReadCmd) (answers : List SourceAnswer) {s : State} (hf : s.fault = 0#8)
    (hidle : s.r.busy = none) : ReadEnds c s answers (pumpReader answers (peekLoop c s)) := by
  induction answers generalizing s with
  | nil =>
    by_cases hfew : 32 - s.r.offset < c.width
    · rw [peekLoop_of_few hfew]
      exact .waits_now hfew
    · rw [peekLoop_of_enough (by omega), pumpReader_idle rfl]
      exact .finishes_now [] hfew
  | cons a rest ih =>
    by_cases hfew : 32 - s.r.offset < c.width
    · rw [peekLoop_of_few hfew, pumpReader_cons (c := c) rfl]
      have herror : a.IsError → ReadEnds c s (a :: rest) (pumpReader rest (readerAnswered c a (beginFill c s))) := by
        intro ha
        rw [readerAnswered_error c ha hf hidle, pumpReader_idle (s := s.afterFailedFill a) hidle]
        exact .fails_now rest hfew ha
      cases a with
      | byte b =>
        rw [readerAnswered_byte c b hf hidle]
        exact .cons hfew (ih (s := s.afterFills [b]) hf hidle)
      | endOfStream => exact herror (.inl rfl)
      | ioError => exact herror (.inr rfl)
    · rw [peekLoop_of_enough (by omega), pumpReader_idle rfl]
      exact .finishes_now (a :: rest) hfew

/-- The answers fix how a read ends. -/
theorem ReadEnds.pumpReader_eq {c : ReadCmd} {s t : State} {answers : List SourceAnswer} (hf : s.fault = 0#8)
    (hidle : s.r.busy = none) (h : ReadEnds c s answers t) : pumpReader answers (peekLoop c s) = t := by
  cases h with
  | @waits bytes hfills hfew =>
    have hpump := pumpReader_afterFills [] hf hidle hfills
    rw [List.append_nil] at hpump
    rw [hpump, peekLoop_of_few hfew]
    rfl
  | @fails bytes a rest hfills hfew ha =>
    rw [pumpReader_afterFills _ hf hidle hfills, peekLoop_of_few hfew, pumpReader_cons (c := c) rfl,
      readerAnswered_error (s := s.afterFills bytes) c ha hf hidle,
      pumpReader_idle (s := (s.afterFills bytes).afterFailedFill a) hidle]
  | @finishes bytes rest hfills henough =>
    rw [pumpReader_afterFills _ hf hidle hfills, peekLoop_of_enough henough, pumpReader_idle rfl]

/-- What a read of an idle reader of a faultless block does, read both ways. -/
theorem readField_eq_iff {c : ReadCmd} {s t : State} (hf : s.fault = 0#8) (hidle : s.r.busy = none) :
    readField c s = t ↔ ReadEnds c s s.source.answers t := by
  rw [readField_eq_pump]
  refine ⟨fun h => ?_, fun h => h.pumpReader_eq hf hidle⟩
  rw [← h]
  exact pumpReader_readEnds c s.source.answers hf hidle

/-! ### The obligations -/

/-- Settles O34: read off the bits of the field. -/
theorem extractTakesTheNextBits : Obligations.ExtractTakesTheNextBits := by
  unfold Obligations.ExtractTakesTheNextBits
  intro acc offset w hw
  refine ⟨fun i hi => ?_, fun i hi => ?_, fun hzero => BitVec.eq_of_getLsbD_eq fun i _ => ?_⟩
  · simp [extractField_getLsbD acc offset hw, hi]
  · simp [extractField_getLsbD acc offset hw, hi]
  · rw [extractField_getLsbD acc offset hw, hzero]
    simp

/-- Settles O35: the next state of a read whose bytes come, written out. -/
theorem readsFetchExactlyTheBytesTheyNeed : Obligations.ReadsFetchExactlyTheBytesTheyNeed := by
  unfold Obligations.ReadsFetchExactlyTheBytesTheyNeed
  intro c s bytes rest hready hwidth hoffset hbytes hanswers
  obtain ⟨-, hidle, -⟩ := id hready
  rw [exec_read_fills hready hwidth hoffset hbytes hanswers]
  refine congrArg Host.Outcome.next (State.ext rfl rfl ?_ rfl rfl rfl rfl rfl)
  exact ReaderUnit.ext rfl rfl rfl rfl hidle.symm

/-- A one-bit field is the data of R.BIT (R107). -/
theorem boolData_extractField (acc : Word) (offset : Nat) :
    boolData (extractField acc offset 1) = extractField acc offset 1 := by
  have hlt : (extractField acc offset 1).toNat < 2 := extractField_lt acc offset (by decide)
  obtain hzero | hone : (extractField acc offset 1).toNat = 0 ∨ (extractField acc offset 1).toNat = 1 := by omega
  · have hfield : extractField acc offset 1 = 0#16 := BitVec.eq_of_toNat_eq hzero
    simp [boolData, hfield]
  · have hfield : extractField acc offset 1 = 1#16 := BitVec.eq_of_toNat_eq hone
    simp [boolData, hfield]

/-- R.BIT ends as R.BITS 1 does, unless that waits (R107). -/
theorem ReadEnds.bit {s t : State} {answers : List SourceAnswer} (h : ReadEnds (.bits 1) s answers t)
    (hidle : t.r.busy = none) : ReadEnds .bit s answers t := by
  cases h with
  | waits => cases hidle
  | fails hfills hfew ha => exact .fails hfills hfew ha
  | @finishes bytes rest hfills henough =>
    have hfinish : finishRead .bit (s.afterFills bytes) = finishRead (.bits 1) (s.afterFills bytes) :=
      congrArg (fun d => respondOk .reader d _) (boolData_extractField _ _)
    rw [← hfinish]
    exact .finishes hfills henough

/-- Settles O37: both make the same checks that can fail, and end alike. -/
theorem rBitIsRBitsOfWidthOne : Obligations.RBitIsRBitsOfWidthOne := by
  unfold Obligations.RBitIsRBitsOfWidthOne
  intro s t h hidle
  have hchecks : firstFault (readerDataChecks s ++ [widthCheck 1 Config.rMaxWidth]) = firstFault (readerDataChecks s) :=
    firstFault_append_pass rfl _
  have hexec : exec (.rBits 1) s = commandTo .reader (readerDataChecks s) (readField (.bits 1)) s :=
    commandTo_congr_checks hchecks
  rw [hexec] at h
  obtain ⟨hfree, ⟨hf, rfl⟩ | ⟨hf, code, hcode, rfl⟩ | ⟨hf, hpass, rfl⟩⟩ := commandTo_cases h
  · exact commandTo_latched hfree hf
  · exact commandTo_fault hfree hf hcode
  · have hbusy : s.r.busy = none := by simpa [unitIsBusy] using hfree
    have hbits := (readField_eq_iff (c := .bits 1) (s := closeInterval .reader s) hf hbusy).mp rfl
    rw [← (readField_eq_iff (c := .bit) (s := closeInterval .reader s) hf hbusy).mpr (hbits.bit hidle)]
    exact commandTo_pass hfree hf hpass

/-- A read of a ready reader one of whose fills fails (R101, R112). -/
theorem exec_read_fails {c : ReadCmd} {s : State} {bytes : List Byte} {a : SourceAnswer} {rest : List SourceAnswer}
    (hready : ReaderReady s) (hwidth : c.width ≤ 16) (hoffset : s.r.offset ≤ 32)
    (hbytes : bytes.length < fillsNeeded s.r.offset c.width) (ha : a.IsError)
    (hanswers : s.source.answers = bytes.map SourceAnswer.byte ++ a :: rest) :
    exec c.instr s =
      .next (setSourceAnswers rest (((closeInterval .reader s).afterFills bytes).afterFailedFill a)) := by
  obtain ⟨hf, hidle, -⟩ := id hready
  have hfew : 32 - (s.r.offset - 8 * bytes.length) < c.width :=
    beginsFills_of_le hoffset (Nat.succ_le_of_lt hbytes) _ (Nat.lt_succ_self _)
  have hends : ReadEnds c (closeInterval .reader s) (bytes.map .byte ++ a :: rest) _ :=
    .fails (beginsFills_of_le hoffset hbytes.le) hfew ha
  rw [exec_read_ready hready hwidth, (readField_eq_iff (s := closeInterval .reader s) hf hidle).mpr (hanswers ▸ hends)]

/-- Settles O38: the next state of a failed read, written out. -/
theorem failedFillLeavesTheShift : Obligations.FailedFillLeavesTheShift := by
  unfold Obligations.FailedFillLeavesTheShift
  intro c s bytes a rest hready hwidth hoffset hbytes ha hanswers
  rw [exec_read_fails hready hwidth hoffset hbytes ha hanswers]
  simp [State.afterFailedFill, State.afterFills, ReaderUnit.afterFills, setSourceAnswers, closeInterval,
    State.setSource, Nat.sub_sub, Nat.mul_add]

/-- The fill of a zero byte only shifts (R101). -/
theorem filledAcc_zero (acc : Word) : filledAcc acc 0#8 = acc >>> 8 := by
  simp [filledAcc]

/-- Settles O39: to the buffer a failed fill is the fill of a zero byte. -/
theorem failedFillBuffersEightZeroBits : Obligations.FailedFillBuffersEightZeroBits := by
  unfold Obligations.FailedFillBuffersEightZeroBits
  intro c s t bytes a rest hready hwidth hoffset hbytes ha hanswers h
  cases (exec_read_fails hready hwidth hoffset hbytes ha hanswers).symm.trans h
  have hroom : 8 * (bytes.length + 1) ≤ s.r.offset := (beginsFills_of_le hoffset hbytes).room hwidth
  have hbuffered : (s.r.afterFills bytes).buffered = s.r.buffered ++ streamBits bytes :=
    ReaderUnit.buffered_afterFills (by omega) hoffset
  have hzero := bitsLsb_filledAcc (s.r.afterFills bytes).acc 0#8 (offset := (s.r.afterFills bytes).offset)
    (by simp only [ReaderUnit.afterFills]; omega) (by simp only [ReaderUnit.afterFills]; omega)
  rw [filledAcc_zero] at hzero
  rw [← hbuffered]
  exact hzero

/-- Settles O40: the checks pass and the offset advances. -/
theorem skipAdvancesWithoutFetching : Obligations.SkipAdvancesWithoutFetching := by
  unfold Obligations.SkipAdvancesWithoutFetching
  rintro s w ⟨hfault, hidle, hatt, hpoison⟩ hw
  have hroom : firstFault [skipCheck s.r.offset w] = none := by simpa [firstFault_eq_none_iff, skipCheck] using hw
  exact commandTo_pass (by simp [unitIsBusy, hidle]) hfault (readerDataChecks_pass.mpr ⟨hatt, hpoison, hroom⟩)

/-- Settles O41: the last check is the first to apply where the skip is too wide. -/
theorem skipPastTheBufferFaults : Obligations.SkipPastTheBufferFaults := by
  unfold Obligations.SkipPastTheBufferFaults
  intro s w hready
  refine ⟨fun hw => ?_, fun hw => ⟨_, skipAdvancesWithoutFetching s w hready hw, hready.1⟩⟩
  obtain ⟨hfault, hidle, hatt, hpoison⟩ := hready
  have hfails : firstFault (readerDataChecks s ++ [skipCheck s.r.offset w]) = some .skipUnderflow := by
    simp [firstFault, readerDataChecks, notAttachedCheck, skipCheck, hatt, hpoison, hw]
  have hexec : exec (.rSkip w) s = .next (raiseFault (some .reader) .skipUnderflow (closeInterval .reader s)) :=
    commandTo_fault (eff := skipBits w) (by simp [unitIsBusy, hidle]) hfault hfails
  have hword : responseWord .fault FaultCode.skipUnderflow.code 0#16 = 0x03060000#32 := by decide
  rw [hexec]
  refine congrArg Host.Outcome.next (State.ext rfl rfl rfl rfl rfl rfl rfl ?_)
  rw [raiseFault_responses, hword]
  rfl

/-- Settles O43: the attachment check passes, and the reset writes the offset and the poison. -/
theorem readerResetDropsTheBuffer : Obligations.ReaderResetDropsTheBuffer := by
  unfold Obligations.ReaderResetDropsTheBuffer
  intro s hfault hidle hatt
  exact commandTo_pass (eff := dropBuffer) (by simp [unitIsBusy, hidle]) hfault
    (by simp [firstFault, notAttachedCheck, hatt])

/-! ### Peeks -/

/-- Responses OK with different data differ (R65). -/
theorem okResponse_inj {u : UnitId} {d d' : Half} : okResponse u d = okResponse u d' ↔ d = d' := by
  refine ⟨fun h => ?_, fun h => by rw [h]⟩
  have hdata := congrArg (fun x => x.word.extractLsb' 0 16) h
  simpa [okResponse] using hdata

/-- A response with another status is no OK (R65, R66). -/
theorem ne_okResponse {u v : UnitId} {st : Status} {fcode : Byte} {data d : Half} (hst : st ≠ .ok) :
    { unit := some u, word := responseWord st fcode data } ≠ okResponse v d := by
  intro h
  have hstatus := congrArg (fun x => x.word.extractLsb' 24 8) h
  cases st <;> simp [okResponse, Status.code] at hstatus hst

/-- A command that responds OK passed its checks and had its effect (R155, R156). -/
theorem commandTo_ok {u v : UnitId} {checks : List Check} {eff : State → State} {s t : State} {d : Half}
    (h : commandTo u checks eff s = .next t) (hok : t.responses = s.responses ++ [okResponse v d]) :
    unitIsBusy u s = false ∧ s.fault = 0#8 ∧ firstFault checks = none ∧ t = eff (closeInterval u s) := by
  have hclosed : (closeInterval u s).responses = s.responses := closeInterval_responses s
  obtain ⟨hidle, ⟨-, rfl⟩ | ⟨-, c, -, rfl⟩ | ⟨hf, hpass, rfl⟩⟩ := commandTo_cases h
  · exact absurd (by simpa [hclosed] using hok) (ne_okResponse (by decide))
  · exact absurd (by simpa [hclosed] using hok) (ne_okResponse (by decide))
  · exact ⟨hidle, hf, hpass, rfl⟩

/-- A read that responds OK finished: the field was buffered, and the reader is not poisoned by it (R103 to R105). -/
theorem ReadEnds.ok {c : ReadCmd} {s t : State} {answers : List SourceAnswer} {d : Half} (h : ReadEnds c s answers t)
    (hok : t.responses = s.responses ++ [okResponse .reader d]) :
    ∃ (bytes : List Byte) (rest : List SourceAnswer), t = setSourceAnswers rest (finishRead c (s.afterFills bytes)) ∧
      c.width ≤ 32 - (s.afterFills bytes).r.offset ∧
      d = c.data (extractField (s.afterFills bytes).r.acc (s.afterFills bytes).r.offset c.width) := by
  cases h with
  | waits => exact absurd hok (by simp [State.afterFills])
  | @fails bytes a rest hfills hfew ha =>
    have hword : { unit := some .reader, word := if a = .endOfStream then 0x02000000#32 else 0x01000000#32 } =
        okResponse .reader d := by
      simpa [State.afterFailedFill, State.afterFills] using hok
    split at hword
    · exact absurd hword (ne_okResponse (st := .endOfStream) (fcode := 0#8) (data := 0#16) (by decide))
    · exact absurd hword (ne_okResponse (st := .ioError) (fcode := 0#8) (data := 0#16) (by decide))
  | @finishes bytes rest hfills henough =>
    refine ⟨bytes, rest, rfl, henough, okResponse_inj (u := .reader) |>.mp (Eq.symm ?_)⟩
    simpa [State.afterFills, okResponse] using hok

/-- After an R.PEEK `w` that responded OK the reader is ready and holds the `w` bits returned (R103, R104). -/
theorem exec_rPeek_ok {s t : State} {w : Nat} {d : Half} (h : exec (.rPeek w) s = .next t)
    (hok : t.responses = s.responses ++ [okResponse .reader d]) :
    ReaderReady t ∧ t.source.exposed = false ∧ w ≤ 16 ∧ w ≤ 32 - t.r.offset ∧
      d = extractField t.r.acc t.r.offset w := by
  obtain ⟨hfree, hf, hpass, rfl⟩ := commandTo_ok (eff := readField (.peek w)) h hok
  obtain ⟨hatt, hpoison, hrange⟩ := readerDataChecks_pass.mp hpass
  have hw : w ≤ 16 := widthCheck_applies.mp ((firstFault_eq_none_iff _).mp hrange _ List.mem_cons_self)
  have hidle : s.r.busy = none := by simpa [unitIsBusy] using hfree
  have hends := (readField_eq_iff (c := .peek w) (s := closeInterval .reader s) hf hidle).mp rfl
  obtain ⟨bytes, rest, ht, henough, hd⟩ := hends.ok hok
  rw [ht]
  exact ⟨⟨hf, rfl, hatt, hpoison⟩, rfl, hw, henough, hd⟩

/-- A narrower field at the same offset is the low bits of a wider one (R104, R114). -/
theorem extractField_and_mask (acc : Word) (offset : Nat) {w n : Nat} (hw : w ≤ 16) (hn : n ≤ w) :
    extractField acc offset w &&& BitVec.ofNat 16 (2 ^ n - 1) = extractField acc offset n := by
  refine BitVec.eq_of_getLsbD_eq fun k _ => ?_
  rw [show BitVec.ofNat 16 (2 ^ n - 1) = mask 16 n from rfl, BitVec.getLsbD_and, mask_getLsbD (by omega),
    extractField_getLsbD acc offset hw, extractField_getLsbD acc offset (by omega)]
  by_cases hk : k < n
  · simp [hk, show k < w by omega]
  · simp [hk]

/-- Settles O44: the bits the first peek returned are still buffered, so the second fetches nothing and extracts at the
same offset. -/
theorem peekIsIdempotent : Obligations.PeekIsIdempotent := by
  unfold Obligations.PeekIsIdempotent
  intro s t w n d _ h hok hn
  obtain ⟨hready, hclosed, hw, henough, rfl⟩ := exec_rPeek_ok h hok
  obtain ⟨hf, hidle, -⟩ := id hready
  refine ⟨?_, extractField_and_mask _ _ hw le_rfl⟩
  have hends : ReadEnds (.peek n) (closeInterval .reader t) t.source.answers _ :=
    .finishes_now _ (show ¬ 32 - t.r.offset < n by omega)
  rw [show Instr.rPeek n = (ReadCmd.peek n).instr from rfl,
    exec_read_ready hready (show (ReadCmd.peek n).width ≤ 16 from hn.trans hw),
    (readField_eq_iff (s := closeInterval .reader t) hf hidle).mpr hends, extractField_and_mask _ _ hw hn]
  refine congrArg Host.Outcome.next (State.ext rfl rfl ?_ rfl rfl ?_ rfl rfl)
  · exact ReaderUnit.ext rfl rfl rfl rfl hidle.symm
  · exact SourcePort.ext rfl rfl hclosed.symm

end Sys2Proof.Machine
end

section
/-! The bits of the reader's accumulator below the offset are unobservable (R111): O46. -/

namespace Sys2Proof.Machine

open Sys2Proof

/-! ### Pairs of states that differ in stale bits only -/

/-- Equal bits from `m` on are equal from any higher place on. -/
theorem ushiftRight_congr_of_le {acc acc' : Word} {m n : Nat} (h : acc' >>> m = acc >>> m) (hmn : m ≤ n) :
    acc' >>> n = acc >>> n := by
  obtain ⟨k, rfl⟩ := Nat.exists_eq_add_of_le hmn
  rw [BitVec.shiftRight_add, BitVec.shiftRight_add, h]

/-- The state with another accumulator in the reader. -/
def State.setRAcc (s : State) (acc : Word) : State := s.setR { s.r with acc := acc }

/-- States that differ in stale bits only differ in an accumulator with the same bits from the offset on (R111). -/
theorem sameButStaleBits_iff {s s' : State} :
    SameButStaleBits s s' ↔ ∃ acc, s' = s.setRAcc acc ∧ acc >>> s.r.offset = s.r.acc >>> s.r.offset := by
  constructor
  · rintro ⟨hs', hacc⟩
    exact ⟨s'.r.acc, hs', hacc⟩
  · rintro ⟨acc, rfl, hacc⟩
    exact ⟨rfl, hacc⟩

theorem SameButStaleBits.refl (s : State) : SameButStaleBits s s := ⟨rfl, rfl⟩

section
variable {s s' : State} (h : SameButStaleBits s s')
include h

theorem SameButStaleBits.fault_eq : s'.fault = s.fault := by
  rw [h.1, State.setR_fault]

theorem SameButStaleBits.source_eq : s'.source = s.source := by
  rw [h.1, State.setR_source]

theorem SameButStaleBits.responses_eq : s'.responses = s.responses := by
  rw [h.1, State.setR_responses]

theorem SameButStaleBits.offset_eq : s'.r.offset = s.r.offset := by
  rw [h.1, State.setR_r]

theorem SameButStaleBits.busy_eq : s'.r.busy = s.r.busy := by
  rw [h.1, State.setR_r]

end

/-- Outcomes that differ in stale bits only, or the same refusal. -/
inductive OutcomesSameButStaleBits : Result → Result → Prop
  | next {t t' : State} (h : SameButStaleBits t t') : OutcomesSameButStaleBits (.next t) (.next t')
  | refused (a : Refusal) : OutcomesSameButStaleBits (.refused a) (.refused a)

/-- An operation that does not let stale bits come back (R111). -/
def KeepsStaleBits (eff : State → State) : Prop :=
  ∀ ⦃s s'⦄, SameButStaleBits s s' → SameButStaleBits (eff s) (eff s')

/-- An operation that passes any accumulator through does not let stale bits come back, if it keeps the offset or
advances it. -/
theorem KeepsStaleBits.of_setRAcc {eff : State → State}
    (heff : ∀ s acc, acc >>> s.r.offset = s.r.acc >>> s.r.offset → eff (s.setRAcc acc) = (eff s).setRAcc acc)
    (hacc : ∀ s, (eff s).r.acc = s.r.acc) (hoffset : ∀ s, s.r.offset ≤ (eff s).r.offset) : KeepsStaleBits eff := by
  intro s s' h
  obtain ⟨acc, rfl, hsame⟩ := sameButStaleBits_iff.mp h
  refine sameButStaleBits_iff.mpr ⟨acc, heff s acc hsame, ?_⟩
  rw [hacc]
  exact ushiftRight_congr_of_le hsame (hoffset s)

/-! ### The reader -/

theorem recordSource_keepsStaleBits (by_ : Issuer) (a : SourceAnswer) : KeepsStaleBits (recordSource by_ a) :=
  .of_setRAcc (fun _ _ _ => rfl) (fun _ => rfl) (fun _ => le_rfl)

theorem setSourceAnswers_keepsStaleBits (as : List SourceAnswer) : KeepsStaleBits (setSourceAnswers as) :=
  .of_setRAcc (fun _ _ _ => rfl) (fun _ => rfl) (fun _ => le_rfl)

theorem exposeSource_keepsStaleBits : KeepsStaleBits exposeSource :=
  .of_setRAcc (fun _ _ _ => rfl) (fun _ => rfl) (fun _ => le_rfl)

theorem detachReader_keepsStaleBits : KeepsStaleBits detachReader :=
  .of_setRAcc (fun _ _ _ => rfl) (fun _ => rfl) (fun _ => le_rfl)

theorem skipBits_keepsStaleBits (w : Nat) : KeepsStaleBits (skipBits w) :=
  .of_setRAcc (fun _ _ _ => rfl) (fun _ => rfl) (fun _ => Nat.le_add_right _ w)

theorem endReaderFaulted_keepsStaleBits : KeepsStaleBits endReaderFaulted :=
  .of_setRAcc (fun _ _ _ => rfl) (fun _ => rfl) (fun _ => le_rfl)

theorem failFill_keepsStaleBits : KeepsStaleBits failFill :=
  .of_setRAcc (fun _ _ _ => rfl) (fun _ => rfl) (fun _ => le_rfl)

theorem pushResponse_keepsStaleBits (x : Response) : KeepsStaleBits (State.pushResponse · x) :=
  .of_setRAcc (fun _ _ _ => rfl) (fun _ => rfl) (fun _ => le_rfl)

theorem attachReader_keepsStaleBits : KeepsStaleBits attachReader := by
  intro s s' h
  obtain ⟨acc, rfl, -⟩ := sameButStaleBits_iff.mp h
  exact .refl _

/-- At offset 32 every bit of the accumulator is stale (R110). -/
theorem dropBuffer_keepsStaleBits : KeepsStaleBits dropBuffer := by
  intro s s' h
  obtain ⟨acc, rfl, -⟩ := sameButStaleBits_iff.mp h
  refine sameButStaleBits_iff.mpr ⟨acc, rfl, ?_⟩
  show acc >>> 32 = s.r.acc >>> 32
  rw [BitVec.ushiftRight_eq_zero le_rfl, BitVec.ushiftRight_eq_zero le_rfl]

/-- An extraction reads only bits from the offset on (R104). -/
theorem finishRead_keepsStaleBits (c : ReadCmd) : KeepsStaleBits (finishRead c) := by
  refine .of_setRAcc (fun s acc hsame => ?_) (fun _ => rfl) (fun _ => Nat.le_add_right _ c.consumed)
  have hfield : extractField acc s.r.offset c.width = extractField s.r.acc s.r.offset c.width := by
    rw [extractField, extractField, hsame]
  exact congrArg (fun field => respondOk .reader (c.data field) _) hfield

/-- A fill moves each bit down as far as the offset falls (R101). -/
theorem beginFill_keepsStaleBits (c : ReadCmd) : KeepsStaleBits (beginFill c) := by
  intro s s' h
  obtain ⟨acc, rfl, hsame⟩ := sameButStaleBits_iff.mp h
  refine sameButStaleBits_iff.mpr ⟨acc >>> 8, rfl, ?_⟩
  show acc >>> 8 >>> (s.r.offset - 8) = s.r.acc >>> 8 >>> (s.r.offset - 8)
  rw [← BitVec.shiftRight_add, ← BitVec.shiftRight_add]
  exact ushiftRight_congr_of_le hsame (by omega)

/-- The end of a successful fill (R101). -/
theorem insertByte_keepsStaleBits (b : Byte) :
    KeepsStaleBits (fun s => s.setR { s.r with acc := insertByte s.r.acc b, busy := none }) := by
  intro s s' h
  obtain ⟨acc, rfl, hsame⟩ := sameButStaleBits_iff.mp h
  refine sameButStaleBits_iff.mpr ⟨insertByte acc b, rfl, ?_⟩
  show insertByte acc b >>> s.r.offset = insertByte s.r.acc b >>> s.r.offset
  rw [insertByte, insertByte, BitVec.ushiftRight_or_distrib, BitVec.ushiftRight_or_distrib, hsame]

theorem peekLoop_keepsStaleBits (c : ReadCmd) : KeepsStaleBits (peekLoop c) := by
  intro s s' h
  have hoffset : s'.r.offset = s.r.offset := h.offset_eq
  unfold peekLoop
  rw [hoffset]
  split
  · exact beginFill_keepsStaleBits c h
  · exact finishRead_keepsStaleBits c h

theorem readerAnswered_keepsStaleBits (c : ReadCmd) (a : SourceAnswer) : KeepsStaleBits (readerAnswered c a) := by
  intro s s' h
  have hrecorded := recordSource_keepsStaleBits .unit a h
  unfold readerAnswered
  dsimp only
  rw [hrecorded.fault_eq]
  split
  · exact endReaderFaulted_keepsStaleBits hrecorded
  · cases a with
    | byte b => exact peekLoop_keepsStaleBits c (insertByte_keepsStaleBits b hrecorded)
    | endOfStream => exact pushResponse_keepsStaleBits _ (failFill_keepsStaleBits hrecorded)
    | ioError => exact pushResponse_keepsStaleBits _ (failFill_keepsStaleBits hrecorded)

theorem pumpReader_keepsStaleBits (as : List SourceAnswer) : KeepsStaleBits (pumpReader as) := by
  intro s s' h
  induction as generalizing s s' with
  | nil => exact setSourceAnswers_keepsStaleBits [] h
  | cons a as ih =>
    cases hb : s.r.busy with
    | none =>
      rw [pumpReader_idle hb, pumpReader_idle (h.busy_eq.trans hb)]
      exact setSourceAnswers_keepsStaleBits _ h
    | some c =>
      rw [pumpReader_cons hb, pumpReader_cons (h.busy_eq.trans hb)]
      exact ih (readerAnswered_keepsStaleBits c a h)

theorem runReader_keepsStaleBits : KeepsStaleBits runReader := by
  intro s s' h
  unfold runReader
  rw [h.source_eq]
  exact pumpReader_keepsStaleBits _ h

theorem readField_keepsStaleBits (c : ReadCmd) : KeepsStaleBits (readField c) :=
  fun _ _ h => runReader_keepsStaleBits (peekLoop_keepsStaleBits c h)

/-! ### The writer -/

/-- An operation of the writer does not see the reader (R35). -/
theorem KeepsStaleBits.of_writer {eff : State → State} (hreads : ReadsOnlyUnit .writer eff)
    (hframe : ∀ s, OnlyUnitChanged .writer s (eff s)) : KeepsStaleBits eff := by
  intro s s' h
  obtain ⟨acc, rfl, hsame⟩ := sameButStaleBits_iff.mp h
  obtain ⟨hconfig, hinputs, hr, hsource⟩ := onlyUnitChanged_writer.mp (hframe s)
  obtain ⟨hconfig', hinputs', hr', hsource'⟩ := onlyUnitChanged_writer.mp (hframe (s.setRAcc acc))
  have halike : Alike .writer s.responses s.responses (eff s) (eff (s.setRAcc acc)) :=
    hreads ⟨⟨rfl, rfl⟩, rfl, [], by simp, by simp [State.setRAcc]⟩
  obtain ⟨new, hnew, hnew'⟩ := halike.responses
  refine sameButStaleBits_iff.mpr ⟨acc, ?_, by rw [hr]; exact hsame⟩
  refine State.ext (hconfig'.trans hconfig.symm) halike.w_eq.symm ?_ halike.fault.symm halike.sink_eq.symm
    (hsource'.trans hsource.symm) (hinputs'.trans hinputs.symm) (hnew'.trans hnew.symm)
  rw [hr', State.setRAcc, State.setRAcc, State.setR_r, State.setR_r, hr]

theorem pumpWriter_onlyUnitChanged (as : List SinkAnswer) (s : State) :
    OnlyUnitChanged .writer s (pumpWriter as s) := by
  obtain ⟨hconfig, hr, -, hsource, hinputs, -, -⟩ := pumpWriter_frame as s
  exact ⟨hconfig, hinputs, hr, hsource⟩

/-! ### Commands -/

/-- A command whose checks do not look at the accumulator and whose effect does not let stale bits come back. -/
theorem SameButStaleBits.commandTo {u : UnitId} {checks : State → List Check} {eff : State → State} {s s' : State}
    (h : SameButStaleBits s s') (hchecks : ∀ acc, checks (s.setRAcc acc) = checks s) (heff : KeepsStaleBits eff) :
    OutcomesSameButStaleBits (commandTo u (checks s) eff s) (commandTo u (checks s') eff s') := by
  obtain ⟨acc, rfl, hsame⟩ := sameButStaleBits_iff.mp h
  rw [hchecks]
  have hclosed : SameButStaleBits (closeInterval u s) (closeInterval u (s.setRAcc acc)) := by
    cases u <;> exact ⟨rfl, hsame⟩
  have hbusy : unitIsBusy u (s.setRAcc acc) = unitIsBusy u s := by cases u <;> rfl
  cases hb : unitIsBusy u s with
  | true =>
    rw [commandTo_busy hb, commandTo_busy (hbusy.trans hb)]
    exact .refused _
  | false =>
    rw [commandTo_idle hb, commandTo_idle (hbusy.trans hb)]
    obtain ⟨acc', hs', hsame'⟩ := sameButStaleBits_iff.mp hclosed
    refine .next ?_
    unfold afterChecks
    rw [hclosed.fault_eq]
    split
    · exact sameButStaleBits_iff.mpr ⟨acc', by rw [hs']; rfl, hsame'⟩
    · cases firstFault (checks s) with
      | some c => exact sameButStaleBits_iff.mpr ⟨acc', by rw [hs']; rfl, hsame'⟩
      | none => exact heff hclosed

/-- No command lets stale bits come back (R111). -/
theorem exec_sameButStaleBits (i : Instr) {s s' : State} (h : SameButStaleBits s s') :
    OutcomesSameButStaleBits (exec i s) (exec i s') := by
  cases i with
  | wNew =>
    exact h.commandTo (checks := fun s => [alreadyAttachedCheck s.w.attached]) (fun _ => rfl)
      (.of_writer attachWriter_readsOnlyUnit fun _ => ⟨rfl, rfl, rfl, rfl⟩)
  | wBit b =>
    exact h.commandTo (checks := writerDataChecks) (fun _ => rfl)
      (.of_writer (writeField_readsOnlyUnit _ _) (writeField_onlyUnitChanged _ _))
  | wBits w v =>
    exact h.commandTo
      (checks := fun s => writerDataChecks s ++ [widthCheck w Config.wMaxWidth, headroomCheck s.w.filled w])
      (fun _ => rfl) (.of_writer (writeField_readsOnlyUnit w v) (writeField_onlyUnitChanged w v))
  | wFlush =>
    exact h.commandTo (checks := writerDataChecks) (fun _ => rfl)
      (.of_writer drainAndFlush_readsOnlyUnit drainAndFlush_onlyUnitChanged)
  | wInner =>
    exact h.commandTo (checks := fun s => [notAttachedCheck s.w.attached]) (fun _ => rfl)
      (.of_writer exposeSink_readsOnlyUnit fun _ => ⟨rfl, rfl, rfl, rfl⟩)
  | wUnwrap =>
    exact h.commandTo (checks := fun s => [notAttachedCheck s.w.attached]) (fun _ => rfl)
      (.of_writer detachWriter_readsOnlyUnit fun _ => ⟨rfl, rfl, rfl, rfl⟩)
  | rNew =>
    exact h.commandTo (checks := fun s => [alreadyAttachedCheck s.r.attached]) (fun _ => rfl)
      attachReader_keepsStaleBits
  | rBit => exact h.commandTo (checks := readerDataChecks) (fun _ => rfl) (readField_keepsStaleBits .bit)
  | rBits w =>
    exact h.commandTo (checks := fun s => readerDataChecks s ++ [widthCheck w Config.rMaxWidth]) (fun _ => rfl)
      (readField_keepsStaleBits (.bits w))
  | rPeek w =>
    exact h.commandTo (checks := fun s => readerDataChecks s ++ [widthCheck w Config.rMaxWidth]) (fun _ => rfl)
      (readField_keepsStaleBits (.peek w))
  | rSkip w =>
    exact h.commandTo (checks := fun s => readerDataChecks s ++ [skipCheck s.r.offset w]) (fun _ => rfl)
      (skipBits_keepsStaleBits w)
  | rReset =>
    exact h.commandTo (checks := fun s => [notAttachedCheck s.r.attached]) (fun _ => rfl) dropBuffer_keepsStaleBits
  | rInner =>
    exact h.commandTo (checks := fun s => [notAttachedCheck s.r.attached]) (fun _ => rfl)
      exposeSource_keepsStaleBits
  | rUnwrap =>
    exact h.commandTo (checks := fun s => [notAttachedCheck s.r.attached]) (fun _ => rfl)
      detachReader_keepsStaleBits

/-- An illegal word, whose one check looks at no register, does not let stale bits come back (R64, R111). -/
theorem illegalWord_sameButStaleBits (o : Option UnitId) {s s' : State} (h : SameButStaleBits s s') :
    OutcomesSameButStaleBits (illegalWord o s) (illegalWord o s') := by
  cases o with
  | some u => exact h.commandTo (checks := fun _ => [_]) (fun _ => rfl) (fun _ _ hx => hx)
  | none =>
    obtain ⟨acc, rfl, hsame⟩ := sameButStaleBits_iff.mp h
    refine .next ?_
    unfold afterChecks
    rw [h.fault_eq]
    split <;> exact sameButStaleBits_iff.mpr ⟨acc, rfl, hsame⟩

/-! ### Steps -/

theorem issueWord_sameButStaleBits (word : Word) {s s' : State} (h : SameButStaleBits s s') :
    OutcomesSameButStaleBits (issueWord word s) (issueWord word s') := by
  unfold issueWord
  split
  · exact exec_sameButStaleBits _ h
  · exact illegalWord_sameButStaleBits _ h

/-- No input lets stale bits come back (R111). -/
theorem takeInput_sameButStaleBits (x : Input) {s s' : State} (h : SameButStaleBits s s') :
    OutcomesSameButStaleBits (takeInput x s) (takeInput x s') := by
  obtain ⟨acc, rfl, hsame⟩ := sameButStaleBits_iff.mp h
  cases x with
  | command word => exact issueWord_sameButStaleBits word h
  | sinkAnswer a =>
    have hpump : KeepsStaleBits (pumpWriter (s.sink.answers ++ [a])) :=
      .of_writer (pumpWriter_readsOnlyUnit _) (pumpWriter_onlyUnitChanged _)
    exact .next (hpump (s := setSinkAnswers _ s) (s' := setSinkAnswers _ (s.setRAcc acc)) ⟨rfl, hsame⟩)
  | sourceAnswer a =>
    exact .next (runReader_keepsStaleBits (setSourceAnswers_keepsStaleBits (s.source.answers ++ [a]) h))
  | hostSink y =>
    change OutcomesSameButStaleBits (hostUsesSink y s) (hostUsesSink y (s.setRAcc acc))
    unfold hostUsesSink
    rw [show hostMayUseSink (s.setRAcc acc) = hostMayUseSink s from rfl, show (s.setRAcc acc).sink = s.sink from rfl]
    split
    · cases s.sink.answers <;> exact .next ⟨rfl, hsame⟩
    · exact .refused _
  | hostSource =>
    change OutcomesSameButStaleBits (hostUsesSource s) (hostUsesSource (s.setRAcc acc))
    unfold hostUsesSource
    rw [show hostMayUseSource (s.setRAcc acc) = hostMayUseSource s from rfl, h.source_eq]
    split
    · cases s.source.answers <;> exact .next ⟨rfl, hsame⟩
    · exact .refused _
  | connectSink as =>
    change OutcomesSameButStaleBits (connectSink as s) (connectSink as (s.setRAcc acc))
    unfold connectSink
    rw [show (s.setRAcc acc).w = s.w from rfl]
    split
    · exact .refused _
    · exact .next ⟨rfl, hsame⟩
  | connectSource as =>
    change OutcomesSameButStaleBits (connectSource as s) (connectSource as (s.setRAcc acc))
    unfold connectSource
    rw [show (s.setRAcc acc).r.attached = s.r.attached from rfl]
    split
    · exact .refused _
    · exact .next ⟨rfl, hsame⟩
  | powerOn => exact .next (.refl _)

/-- Settles O46: no input lets stale bits come back. -/
theorem staleAccumulatorBitsAreUnobservable : Obligations.StaleAccumulatorBitsAreUnobservable := by
  unfold Obligations.StaleAccumulatorBitsAreUnobservable
  intro s s' h
  have hstep : OutcomesSameButStaleBits (step s) (step s') := by
    obtain ⟨acc, rfl, hsame⟩ := sameButStaleBits_iff.mp h
    cases hin : s.inputs with
    | nil =>
      rw [step_of_no_input hin, step_of_no_input (s := s.setRAcc acc) hin]
      exact .next h
    | cons x rest =>
      rw [step_of_input hin, step_of_input (s := s.setRAcc acc) hin]
      exact takeInput_sameButStaleBits x ⟨rfl, hsame⟩
  generalize step s = x, step s' = x' at hstep
  cases hstep with
  | next h => exact ⟨h, h.responses_eq⟩
  | refused a => rfl

end Sys2Proof.Machine
end

section
/-! The bits a reader fetches and the bits its commands consume (R113): O45. -/

namespace Sys2Proof.Machine

open Sys2Proof

/-! ### What a run leaves of its premises for a part of it -/

/-- From `s` to `t` every answer the source gave was a byte: no fill failed (R113). -/
def LogsBytesOnly (s t : State) : Prop :=
  ∃ new, t.source.log = s.source.log ++ new ∧ ∀ x ∈ new, ∃ b, x.answer = .byte b

/-- A part of a run in which no fill failed has none that failed. -/
theorem LogsBytesOnly.split {s u t : State} (h : LogsBytesOnly s t) (hsu : s.source.log <+: u.source.log)
    (hut : u.source.log <+: t.source.log) : LogsBytesOnly s u ∧ LogsBytesOnly u t := by
  obtain ⟨new, hnew, hbytes⟩ := h
  obtain ⟨first, hfirst⟩ := hsu
  obtain ⟨second, hsecond⟩ := hut
  obtain rfl : new = first ++ second := by
    rw [← hsecond, ← hfirst, List.append_assoc] at hnew
    exact (List.append_cancel_left hnew).symm
  exact ⟨⟨first, hfirst.symm, fun x hx => hbytes x (by simp [hx])⟩,
    ⟨second, hsecond.symm, fun x hx => hbytes x (by simp [hx])⟩⟩

/-- The reader's last command, if any, has responded and no fault is latched. -/
structure State.ReaderSettled (s : State) : Prop where
  fault : s.fault = 0#8
  idle : s.r.busy = none

/-- As `settled_before`, for the reader. -/
theorem readerSettled_before {i : Instr} {s t : State} (h : exec i s = .next t) (ht : t.ReaderSettled) :
    s.ReaderSettled := by
  obtain ⟨checks, eff, hexec⟩ := exec_eq_commandTo i s
  obtain ⟨hfree, hf, -⟩ := commandTo_passed (hexec ▸ h) ht.fault
  refine ⟨hf, ?_⟩
  cases hu : i.unit with
  | reader => simpa [hu, unitIsBusy] using hfree
  | writer =>
    obtain ⟨hwriter, -⟩ := commandsLeaveTheOtherUnitAlone i s t h
    obtain ⟨hr, -⟩ := hwriter hu
    exact hr ▸ ht.idle

/-- Before a program that ends with the reader settled it was settled, and the source's log only grows. -/
theorem readerSettled_before_program {program : List Instr} {s t : State} (hwf : ∀ i ∈ program, i.WellFormed)
    (h : runProgram program s = .next t) (ht : t.ReaderSettled) :
    s.ReaderSettled ∧ s.source.log <+: t.source.log := by
  induction program generalizing s with
  | nil =>
    cases h
    exact ⟨⟨ht.fault, ht.idle⟩, List.prefix_rfl⟩
  | cons i program ih =>
    obtain ⟨hi, hrest⟩ := List.forall_mem_cons.mp hwf
    obtain ⟨u, hexec, hrun⟩ := runProgram_cons hi h
    obtain ⟨hu, hlog⟩ := ih hrest hrun
    exact ⟨readerSettled_before hexec hu, (exec_sourceLogGrows hexec).log_isPrefix.trans hlog⟩

/-! ### Commands -/

/-- From `s` to `t` the reader fetched `bytes`, and of the bits it then held it consumed the first `n` (R113). -/
structure Consumes (n : Nat) (bytes : List Byte) (s t : State) : Prop where
  offset : t.r.offset ≤ 32
  fetched : t.source.fetched = s.source.fetched ++ bytes
  enough : n ≤ (s.r.buffered ++ streamBits bytes).length
  buffered : t.r.buffered = (s.r.buffered ++ streamBits bytes).drop n

/-- One command after another. -/
theorem Consumes.trans {m n : Nat} {bytes more : List Byte} {s u t : State} (h : Consumes m bytes s u)
    (h' : Consumes n more u t) : Consumes (m + n) (bytes ++ more) s t := by
  have hlength := h'.enough
  have henough := h.enough
  rw [h.buffered] at hlength
  refine ⟨h'.offset, by rw [h'.fetched, h.fetched, List.append_assoc], ?_, ?_⟩
  · simp only [List.length_append, List.length_drop, streamBits_append] at hlength henough ⊢
    omega
  · rw [h'.buffered, h.buffered, ← List.drop_append_of_le_length henough, List.drop_drop, streamBits_append,
      List.append_assoc]

/-- What leaves the reader's buffer and the source's log as they are consumes nothing. -/
theorem Consumes.of_same {s t : State} (hoffset : s.r.offset ≤ 32) (hr : t.r = s.r)
    (hlog : t.source.log = s.source.log) : Consumes 0 [] s t := by
  refine ⟨hr ▸ hoffset, by simp [SourcePort.fetched, hlog], Nat.zero_le _, ?_⟩
  simp [hr]

/-- The end of the interval consumes nothing (R137). -/
theorem Consumes.of_closed {n : Nat} {bytes : List Byte} {s t : State}
    (h : Consumes n bytes (closeInterval .reader s) t) : Consumes n bytes s t :=
  ⟨h.offset, h.fetched, h.enough, h.buffered⟩

@[simp] theorem ReaderUnit.buffered_length (r : ReaderUnit) : r.buffered.length = 32 - r.offset := by
  simp [ReaderUnit.buffered]

/-- A skip consumes buffered bits (R108). -/
theorem skipBits_consumes {s : State} {w : Nat} (hoffset : s.r.offset ≤ 32) (hw : w ≤ 32 - s.r.offset) :
    Consumes w [] s (skipBits w s) := by
  refine ⟨?_, by simp [SourcePort.fetched, skipBits], by simpa using hw, ?_⟩
  · simp only [skipBits, respondOk_r, State.setR_r]
    omega
  · rw [streamBits_nil, List.append_nil]
    exact bitsLsb_advance s.r.acc s.r.offset w

/-- A finished read consumes its width from the front of the bits buffered and fetched (R101, R103 to R107). -/
theorem finishRead_consumes {c : ReadCmd} {s : State} {bytes : List Byte} (rest : List SourceAnswer)
    (hoffset : s.r.offset ≤ 32) (hroom : 8 * bytes.length ≤ s.r.offset)
    (henough : c.width ≤ 32 - (s.afterFills bytes).r.offset) :
    Consumes c.consumed bytes s (setSourceAnswers rest (finishRead c (s.afterFills bytes))) := by
  have hbuffered : (s.afterFills bytes).r.buffered = s.r.buffered ++ streamBits bytes :=
    ReaderUnit.buffered_afterFills hroom hoffset
  have hconsumed : c.consumed ≤ 32 - (s.afterFills bytes).r.offset := by
    cases c with
    | bit | bits w => exact henough
    | peek w => exact Nat.zero_le _
  refine ⟨?_, State.fetched_afterFills s bytes, ?_, ?_⟩
  · have : (s.afterFills bytes).r.offset ≤ 32 := (Nat.sub_le _ _).trans hoffset
    simp only [setSourceAnswers_r, finishRead_r]
    omega
  · rw [← hbuffered, ReaderUnit.buffered_length]
    exact hconsumed
  · rw [← hbuffered]
    exact bitsLsb_advance _ _ _

/-- A read that ends with no wait and no failed fill finished (R103, R112, R162). -/
theorem ReadEnds.consumes {c : ReadCmd} {s t : State} {answers : List SourceAnswer} (h : ReadEnds c s answers t)
    (hwidth : c.width ≤ 16) (hoffset : s.r.offset ≤ 32) (hidle : t.r.busy = none) (hlog : LogsBytesOnly s t) :
    ∃ bytes, Consumes c.consumed bytes s t := by
  cases h with
  | waits => cases hidle
  | @fails bytes a rest hfills hfew ha =>
    obtain ⟨new, hnew, hbytes⟩ := hlog
    have hmem : { issuer := .unit, answer := a } ∈ new := by
      simp [State.afterFailedFill, State.afterFills] at hnew
      simp [← hnew]
    obtain ⟨b, hb⟩ := hbytes _ hmem
    exact absurd hb (ha.not_byte b)
  | @finishes bytes rest hfills henough =>
    exact ⟨bytes, finishRead_consumes rest hoffset (hfills.room hwidth) henough⟩

/-- As `writerData_passed`, for the reader. -/
theorem readerData_passed {more : List Check} {eff : State → State} {s t : State}
    (h : commandTo .reader (readerDataChecks s ++ more) eff s = .next t) (ht : t.fault = 0#8) :
    s.fault = 0#8 ∧ s.r.busy = none ∧ firstFault more = none ∧ t = eff (closeInterval .reader s) := by
  obtain ⟨hfree, hf, hpass, heff⟩ := commandTo_passed h ht
  obtain ⟨-, -, hmore⟩ := readerDataChecks_pass.mp hpass
  exact ⟨hf, by simpa [unitIsBusy] using hfree, hmore, heff⟩

/-- A read that ends with no fault, wait or failed fill consumes its bits (R113). -/
theorem exec_read_consumes {c : ReadCmd} {s t : State} (hoffset : s.r.offset ≤ 32) (h : exec c.instr s = .next t)
    (ht : t.ReaderSettled) (hlog : LogsBytesOnly s t) : ∃ bytes, Consumes c.consumed bytes s t := by
  have hpassed : s.fault = 0#8 ∧ s.r.busy = none ∧ c.width ≤ 16 ∧ t = readField c (closeInterval .reader s) := by
    have hrange : ∀ {w}, firstFault [widthCheck w Config.rMaxWidth] = none → w ≤ 16 := fun hmore =>
      widthCheck_applies.mp ((firstFault_eq_none_iff _).mp hmore _ List.mem_cons_self)
    cases c with
    | bit =>
      obtain ⟨hf, hidle, -, rfl⟩ := readerData_passed (more := []) (eff := readField .bit) h ht.fault
      exact ⟨hf, hidle, by decide, rfl⟩
    | bits w =>
      obtain ⟨hf, hidle, hmore, rfl⟩ := readerData_passed (eff := readField (.bits w)) h ht.fault
      exact ⟨hf, hidle, hrange hmore, rfl⟩
    | peek w =>
      obtain ⟨hf, hidle, hmore, rfl⟩ := readerData_passed (eff := readField (.peek w)) h ht.fault
      exact ⟨hf, hidle, hrange hmore, rfl⟩
  obtain ⟨hf, hidle, hwidth, rfl⟩ := hpassed
  have hends := (readField_eq_iff (c := c) (s := closeInterval .reader s) hf hidle).mp rfl
  obtain ⟨bytes, hconsumes⟩ := hends.consumes hwidth hoffset ht.idle hlog
  exact ⟨bytes, hconsumes.of_closed⟩

/-- A command that ends with no fault, wait or failed fill consumes its bits (R113). -/
theorem exec_consumes {i : Instr} {s t : State} (hnew : i ≠ .rNew) (hreset : i ≠ .rReset) (hunwrap : i ≠ .rUnwrap)
    (hoffset : s.r.offset ≤ 32) (h : exec i s = .next t) (ht : t.ReaderSettled) (hlog : LogsBytesOnly s t) :
    ∃ bytes, Consumes (consumedBits i) bytes s t := by
  cases i with
  | rNew => exact absurd rfl hnew
  | rReset => exact absurd rfl hreset
  | rUnwrap => exact absurd rfl hunwrap
  | rBit => exact exec_read_consumes (c := .bit) hoffset h ht hlog
  | rBits w => exact exec_read_consumes (c := .bits w) hoffset h ht hlog
  | rPeek w => exact exec_read_consumes (c := .peek w) hoffset h ht hlog
  | rSkip w =>
    obtain ⟨-, -, hmore, rfl⟩ := readerData_passed (eff := skipBits w) h ht.fault
    have hw : w ≤ 32 - s.r.offset := by simpa [firstFault_eq_none_iff, skipCheck] using hmore
    exact ⟨[], (skipBits_consumes (s := closeInterval .reader s) hoffset hw).of_closed⟩
  | rInner =>
    obtain ⟨-, -, -, rfl⟩ := commandTo_passed (eff := exposeSource) h ht.fault
    exact ⟨[], .of_same hoffset rfl rfl⟩
  | wNew | wBit _ | wBits _ _ | wFlush | wInner | wUnwrap =>
    obtain ⟨hwriter, -⟩ := commandsLeaveTheOtherUnitAlone _ s t h
    obtain ⟨hr, hsource⟩ := hwriter rfl
    exact ⟨[], .of_same hoffset hr (by rw [hsource])⟩

/-! ### Programs -/

/-- A program that ends with no fault, wait or failed fill consumes the bits of its commands (R113). -/
theorem runProgram_consumes {program : List Instr} {s t : State}
    (hprogram : ∀ i ∈ program, i.WellFormed ∧ i ≠ .rNew ∧ i ≠ .rReset ∧ i ≠ .rUnwrap) (hoffset : s.r.offset ≤ 32)
    (h : runProgram program s = .next t) (ht : t.ReaderSettled) (hlog : LogsBytesOnly s t) :
    ∃ bytes, Consumes (program.map consumedBits).sum bytes s t := by
  induction program generalizing s with
  | nil =>
    cases h
    exact ⟨[], .of_same hoffset rfl rfl⟩
  | cons i program ih =>
    obtain ⟨⟨hwf, hnew, hreset, hunwrap⟩, hrest⟩ := List.forall_mem_cons.mp hprogram
    obtain ⟨u, hexec, hrun⟩ := runProgram_cons hwf h
    obtain ⟨hu, hgrows⟩ := readerSettled_before_program (fun j hj => (hrest j hj).1) hrun ht
    obtain ⟨hfirst, hsecond⟩ := hlog.split (exec_sourceLogGrows hexec).log_isPrefix hgrows
    obtain ⟨bytes, hconsumes⟩ := exec_consumes hnew hreset hunwrap hoffset hexec hu hfirst
    obtain ⟨more, hmore⟩ := ih hrest hconsumes.offset hrun hsecond
    exact ⟨bytes ++ more, hconsumes.trans hmore⟩

/-- Settles O45: by induction on the program from a reader with nothing buffered; the offset is the length of the
buffer. -/
theorem fetchLaw : Obligations.FetchLaw := by
  unfold Obligations.FetchLaw
  intro program s t new hprogram _ hempty h hfault hidle hlog hbytes
  obtain ⟨bytes, hconsumes⟩ :=
    runProgram_consumes hprogram hempty.le h ⟨hfault, hidle⟩ ⟨new, hlog, hbytes⟩
  obtain ⟨-, hfetched, henough, hbuffered⟩ := hconsumes
  have hnothing : s.r.buffered = [] := by simp [← List.length_eq_zero_iff, hempty]
  rw [hnothing, List.nil_append] at henough hbuffered
  rw [streamBits_length] at henough
  have hlength := congrArg List.length hbuffered
  rw [ReaderUnit.buffered_length, List.length_drop, streamBits_length] at hlength
  exact ⟨bytes, hfetched, henough, hlength, hbuffered⟩

end Sys2Proof.Machine
end

section
/-! What the writer writes the reader reads back (R116): O47. -/

namespace Sys2Proof.Machine

open Sys2Proof

/-! ### What the sink accepts -/

/-- From `s` to `t` the sink accepted what the writer offered it, and nothing else (R41, R89). -/
def AllAccepted (s t : State) : Prop :=
  ∃ bytes, t.sink.stream = s.sink.stream ++ bytes ∧ t.sink.offered = s.sink.offered ++ bytes

theorem AllAccepted.of_log_eq {s t : State} (h : t.sink.log = s.sink.log) : AllAccepted s t :=
  ⟨[], by simp [SinkPort.stream, h], by simp [SinkPort.offered, h]⟩

theorem AllAccepted.trans {s u t : State} (h : AllAccepted s u) (h' : AllAccepted u t) : AllAccepted s t := by
  obtain ⟨bytes, hstream, hoffered⟩ := h
  obtain ⟨more, hstream', hoffered'⟩ := h'
  exact ⟨bytes ++ more, by rw [hstream', hstream, List.append_assoc], by rw [hoffered', hoffered, List.append_assoc]⟩

/-- A transaction answered with ok is accepted. -/
theorem writerAnswered_ok_accepted (p : WriterWait) (s : State) : AllAccepted s (writerAnswered p .ok s) := by
  obtain ⟨-, -, -, -, -, hsink⟩ := writerAnswered_frame p .ok s
  refine ⟨(p.request s.w).bytes, ?_, ?_⟩
  · simp [hsink, SinkPort.stream, SinkRecord.accepted]
  · simp [hsink, SinkPort.offered]

/-- A writer's command that has not failed had all its transactions accepted (R84, R87). -/
theorem pumpWriter_accepted {s : State} (as : List SinkAnswer) (hf : s.fault = 0#8)
    (hfailed : (pumpWriter as s).w.failed = false) : AllAccepted s (pumpWriter as s) := by
  refine (pumpWriter_induct (P := fun t => t.fault = 0#8 ∧ (t.w.failed = false → AllAccepted s t))
    (fun as t h => h) (fun p a t _ ⟨hfault, h⟩ => ?_) as s ⟨hf, fun _ => .of_log_eq rfl⟩).2 hfailed
  obtain ⟨-, -, hfault', -⟩ := writerAnswered_frame p a t
  refine ⟨hfault'.trans hfault, fun hanswered => ?_⟩
  cases a with
  | ok =>
    have ht : t.w.failed = false := by
      rw [writerAnswered_clear hfault] at hanswered
      cases p <;> exact hanswered
    exact (h ht).trans (writerAnswered_ok_accepted p t)
  | ioError kept =>
    rw [writerAnswered_clear hfault] at hanswered
    cases hanswered

theorem writeField_accepted {w : Nat} {v : Half} {s : State} (hf : s.fault = 0#8)
    (hfailed : (writeField w v s).w.failed = false) : AllAccepted s (writeField w v s) := by
  by_cases hfew : s.w.filled + w < 16
  · rw [writeField_below hfew]
    exact .of_log_eq rfl
  · rw [writeField_atThreshold (by omega)] at hfailed ⊢
    exact pumpWriter_accepted (s := s.setW _) s.sink.answers hf hfailed

/-- A command other than W.NEW that ends settled had all its transactions accepted (R84, R87). -/
theorem exec_accepted {i : Instr} {s t : State} (hnew : i ≠ .wNew) (h : exec i s = .next t) (ht : t.Settled) :
    AllAccepted s t := by
  cases i with
  | wNew => exact absurd rfl hnew
  | wBit b =>
    obtain ⟨hf, -, -, rfl⟩ := writerData_passed (more := []) (eff := writeField 1 (bitValue b)) h ht.fault
    exact writeField_accepted (s := closeInterval .writer s) hf ht.failed
  | wBits w v =>
    obtain ⟨hf, -, -, rfl⟩ := writerData_passed (eff := writeField w v) h ht.fault
    exact writeField_accepted (s := closeInterval .writer s) hf ht.failed
  | wFlush =>
    obtain ⟨hf, -, -, rfl⟩ := writerData_passed (more := []) (eff := drainAndFlush) h ht.fault
    exact pumpWriter_accepted (s := (closeInterval .writer s).setW _) s.sink.answers hf ht.failed
  | wInner =>
    obtain ⟨-, -, -, rfl⟩ := commandTo_passed (eff := exposeSink) h ht.fault
    exact .of_log_eq rfl
  | wUnwrap =>
    obtain ⟨-, -, -, rfl⟩ := commandTo_passed (eff := detachWriter) h ht.fault
    exact .of_log_eq rfl
  | rNew | rBit | rBits _ | rPeek _ | rSkip _ | rReset | rInner | rUnwrap =>
    obtain ⟨-, hsink⟩ := exec_reader_keeps_writer rfl h
    exact .of_log_eq (by rw [hsink])

theorem runProgram_accepted {program : List Instr} {s t : State}
    (hprogram : ∀ i ∈ program, i.WellFormed ∧ i ≠ .wNew ∧ i ≠ .wUnwrap) (h : runProgram program s = .next t)
    (ht : t.Settled) : AllAccepted s t := by
  induction program generalizing s with
  | nil =>
    cases h
    exact .of_log_eq rfl
  | cons i program ih =>
    obtain ⟨⟨hwf, hnew, -⟩, hrest⟩ := List.forall_mem_cons.mp hprogram
    obtain ⟨u, hexec, hrun⟩ := runProgram_cons hwf h
    exact (exec_accepted hnew hexec (settled_before_program hrest hrun ht)).trans (ih hrest hrun)

/-! ### The flush at the end -/

/-- Where a W.FLUSH stands between two answers, `rs` being the responses before it: at the head of its loop, over with
nothing held, or failed with its response given (R86, R87). -/
inductive FlushStands (rs : List Response) (t : State) : Prop
  | waits (hhead : t.w.busy = some (nextDrain t.w.filled)) (hfailed : t.w.failed = false) (hnone : t.responses = rs)
  | drained (hidle : t.w.busy = none) (hfailed : t.w.failed = false) (hempty : t.w.filled = 0)
  | failed (hidle : t.w.busy = none)
    (herror : t.responses = rs ++ [{ unit := some .writer, word := responseWord .ioError 0#8 0#16 }])

theorem writerAnswered_flushStands {rs : List Response} {p : WriterWait} {a : SinkAnswer} {s : State}
    (hf : s.fault = 0#8) (hb : s.w.busy = some p) (h : FlushStands rs s) : FlushStands rs (writerAnswered p a s) := by
  cases h with
  | drained hidle => simp [hb] at hidle
  | failed hidle => simp [hb] at hidle
  | waits hhead hfailed hnone =>
    obtain rfl : p = nextDrain s.w.filled := by simpa [hb] using hhead
    rw [writerAnswered_clear hf]
    cases a with
    | ioError kept => exact .failed rfl (by simp [hnone])
    | ok =>
      by_cases hempty : s.w.filled = 0
      · rw [show nextDrain s.w.filled = .flush by simp [nextDrain, hempty]]
        exact .drained rfl hfailed hempty
      · rw [show nextDrain s.w.filled = .drain from if_pos (Nat.pos_of_ne_zero hempty)]
        exact .waits rfl hfailed hnone

/-- A W.FLUSH that responds OK leaves the writer settled with nothing held (R86, R87). -/
theorem exec_wFlush_ok {s t : State} {d : Half} (h : exec .wFlush s = .next t)
    (hok : t.responses = s.responses ++ [okResponse .writer d]) : t.Settled ∧ t.w.filled = 0 := by
  obtain ⟨-, hf, hpass, rfl⟩ := commandTo_ok (eff := drainAndFlush) h hok
  obtain ⟨-, hfailed, -⟩ := (writerDataChecks_pass (more := [])).mp hpass
  have hpump : (drainAndFlush (closeInterval .writer s)).fault = 0#8 ∧
      FlushStands s.responses (drainAndFlush (closeInterval .writer s)) := by
    refine pumpWriter_induct (P := fun t => t.fault = 0#8 ∧ FlushStands s.responses t)
      (fun as t ⟨hfault, h⟩ => ⟨hfault, ?_⟩) (fun p a t hb ⟨hfault, h⟩ => ⟨?_, writerAnswered_flushStands hfault hb h⟩)
      s.sink.answers ((closeInterval .writer s).setW { s.w with busy := some (nextDrain s.w.filled) })
      ⟨hf, .waits rfl hfailed rfl⟩
    · cases h with
      | waits hhead hfailed hnone => exact .waits hhead hfailed hnone
      | drained hidle hfailed hempty => exact .drained hidle hfailed hempty
      | failed hidle herror => exact .failed hidle herror
    · obtain ⟨-, -, hfault', -⟩ := writerAnswered_frame p a t
      exact hfault'.trans hfault
  obtain ⟨hfault, hstands⟩ := hpump
  cases hstands with
  | waits hhead hfailed hnone => simp [hok] at hnone
  | drained hidle hfailed hempty => exact ⟨⟨hfault, hfailed, hidle⟩, hempty⟩
  | failed hidle herror => exact absurd (by simpa [hok] using herror.symm) (ne_okResponse (by decide))

/-- A command gives at most one response (R65, R69). -/
theorem exec_responses {i : Instr} {s t : State} (h : exec i s = .next t) :
    t.responses = s.responses ∨ ∃ x, t.responses = s.responses ++ [x] := by
  obtain ⟨-, hnone⟩ | ⟨-, x, hone, -⟩ := exec_respondsOrWaits h
  · exact .inl hnone
  · exact .inr ⟨x, hone⟩

/-- A program ends with its last command, before which each of the others gave at most one response. -/
theorem runProgram_concat {program : List Instr} {i : Instr} {s t : State}
    (hwf : ∀ j ∈ program ++ [i], j.WellFormed) (h : runProgram (program ++ [i]) s = .next t) :
    ∃ u, exec i u = .next t ∧ u.responses.length ≤ s.responses.length + program.length := by
  induction program generalizing s with
  | nil =>
    obtain ⟨u, hexec, hrun⟩ := runProgram_cons (hwf i (by simp)) h
    cases hrun
    exact ⟨s, hexec, le_rfl⟩
  | cons j program ih =>
    obtain ⟨hj, hrest⟩ := List.forall_mem_cons.mp hwf
    obtain ⟨x, hexec, hrun⟩ := runProgram_cons hj h
    obtain ⟨u, hlast, hcount⟩ := ih hrest hrun
    refine ⟨u, hlast, ?_⟩
    have hx : x.responses.length ≤ s.responses.length + 1 := by
      obtain hx | ⟨y, hx⟩ := exec_responses hexec <;> simp [hx]
    simp only [List.length_cons]
    omega

/-- If each command of a program gave an OK, its last one did. -/
theorem runProgram_concat_ok {program : List Instr} {i : Instr} {s t : State} {x : Response}
    (hwf : ∀ j ∈ program ++ [i], j.WellFormed) (h : runProgram (program ++ [i]) s = .next t)
    (hok : t.responses = s.responses ++ List.replicate (program.length + 1) x) :
    ∃ u, exec i u = .next t ∧ t.responses = u.responses ++ [x] := by
  obtain ⟨u, hlast, hcount⟩ := runProgram_concat hwf h
  refine ⟨u, hlast, ?_⟩
  obtain hnone | ⟨y, hone⟩ := exec_responses hlast
  · have hlength := congrArg List.length hok
    simp [hnone] at hlength
    omega
  · rw [hone, List.replicate_succ', ← List.append_assoc] at hok
    obtain ⟨-, hy⟩ := List.append_inj' hok rfl
    rw [hone, hy]

/-- The bits fields give the writer (R83, R89). -/
theorem foldl_givenBits_fields (fields : List (Nat × Half)) (g : List Bool) :
    (fields.map (fun f => Instr.wBits f.1 f.2)).foldl givenBits g = g ++ fields.flatMap (fun f => bitsLsb f.1 f.2) := by
  induction fields generalizing g with
  | nil => simp
  | cons f fields ih => simp [ih, givenBits]

/-- The bytes the sink accepts of fields and a flush, all OK, carry the bits of the fields, and after them padding
(R89, R116). -/
theorem accepted_of_fields {fields : List (Nat × Half)} {s t : State} (hfields : ∀ f ∈ fields, f.1 ≤ 15)
    (hready : WriterReady s) (hacc : s.w.acc = 0#32) (hempty : s.w.filled = 0)
    (h : runProgram (fields.map (fun f => .wBits f.1 f.2) ++ [.wFlush]) s = .next t)
    (hok : t.responses = s.responses ++ List.replicate (fields.length + 1) (okResponse .writer 0#16)) :
    ∃ bytes pad, t.sink.stream = s.sink.stream ++ bytes ∧
      streamBits bytes = fields.flatMap (fun f => bitsLsb f.1 f.2) ++ pad := by
  have hprogram : ∀ i ∈ fields.map (fun f => Instr.wBits f.1 f.2) ++ [.wFlush],
      i.WellFormed ∧ i ≠ .wNew ∧ i ≠ .wUnwrap := by
    simp only [List.mem_append, List.mem_map, List.mem_singleton]
    rintro i (⟨f, hf, rfl⟩ | rfl)
    · exact ⟨(hfields f hf).trans_lt (by decide), by simp, by simp⟩
    · exact ⟨trivial, by simp, by simp⟩
  obtain ⟨u, hflush, hflushed⟩ := runProgram_concat_ok (fun i hi => (hprogram i hi).1) h (by simpa using hok)
  obtain ⟨ht, hdrained⟩ := exec_wFlush_ok hflush hflushed
  obtain ⟨bytes, hstream, hoffered⟩ := runProgram_accepted hprogram h ht
  have hlaw := emissionLaw _ s t hprogram hready hacc hempty h ht.fault ht.failed ht.idle
  have hheld : t.w.buffered = [] := by simp [WriterUnit.buffered, hdrained, bitsLsb]
  rw [hheld, List.append_nil, hoffered, streamBits_append, List.append_right_inj, List.foldl_append,
    foldl_givenBits_fields, List.nil_append] at hlaw
  exact ⟨bytes, _, hstream, hlaw⟩

/-! ### Reading back -/

/-- A program whose first command ends goes on with the others (R21). -/
theorem runProgram_cons_of_exec {i : Instr} {program : List Instr} {s u : State} (hi : i.WellFormed)
    (h : exec i s = .next u) : runProgram (i :: program) s = runProgram program u := by
  have run_succ : ∀ (M : Host.Core) (n : Nat) (x y : M.State), M.step x = .next y → M.run (n + 1) x = M.run n y := by
    intro M n x y hxy
    rw [Host.Core.run, hxy]
  obtain ⟨-, hinputs, -⟩ := exec_onlyUnitChanged h
  refine run_succ Sys2Proof.core program.length (loadProgram ((i :: program).map encode) s)
    (loadProgram (program.map encode) u) ?_
  calc step (loadProgram ((i :: program).map encode) s)
      = issueWord (encode i) (loadProgram (program.map encode) s) :=
        step_of_command (s := loadProgram ((i :: program).map encode) s) rfl
    _ = exec i (loadProgram (program.map encode) s) := issueWord_of_instr (decodeOfEncodeIsTheCommand i hi) _
    _ = .next (u.setInputs (loadProgram (program.map encode) s).inputs) := exec_setInputs _ h
    _ = .next (loadProgram (program.map encode) u) := by rw [loadProgram, loadProgram, hinputs, State.setInputs_inputs]

/-- A ready reader from which, its buffer and then its source read on, the bits `bits` come (R28, R113). -/
structure ReadsAs (bits : List Bool) (s : State) : Prop where
  ready : ReaderReady s
  offset : s.r.offset ≤ 32
  bits : ∃ bytes : List Byte, s.source.answers = bytes.map .byte ∧ s.r.buffered ++ streamBits bytes = bits

/-- A value below `2^w` whose low `w` bits are those of `v` is `v & mask(w)` (R8). -/
theorem eq_and_mask_of_bitsLsb {field v : Half} {w : Nat} (hw : w ≤ 16) (hlt : field.toNat < 2 ^ w)
    (hbits : bitsLsb w field = bitsLsb w v) : field = v &&& BitVec.ofNat 16 (2 ^ w - 1) := by
  refine BitVec.eq_of_getLsbD_eq fun k _ => ?_
  rw [show BitVec.ofNat 16 (2 ^ w - 1) = mask 16 w from rfl, BitVec.getLsbD_and, mask_getLsbD hw]
  by_cases hk : k < w
  · have hbit := congrArg (fun bits => bits[k]?) hbits
    rw [bitsLsb_getElem? _ hk, bitsLsb_getElem? _ hk, Option.some_inj] at hbit
    simp [hbit, hk]
  · have hclear : field.getLsbD k = false :=
      Nat.testBit_lt_two_pow (hlt.trans_le (Nat.pow_le_pow_right (by decide) (by omega)))
    simp [hclear, hk]

/-- R.BITS takes a field from the front of the bits to come (R106, R113). -/
theorem exec_rBits_readsAs {s : State} {w : Nat} {v : Half} {tail : List Bool} (hw : w ≤ 16)
    (h : ReadsAs (bitsLsb w v ++ tail) s) :
    ∃ t, exec (.rBits w) s = .next t ∧ ReadsAs tail t ∧
      t.responses = s.responses ++ [okResponse .reader (v &&& BitVec.ofNat 16 (2 ^ w - 1))] := by
  obtain ⟨hready, hoffset, bytes, hanswers, hbits⟩ := h
  have hcount : 32 - s.r.offset + 8 * bytes.length = w + tail.length := by
    simpa using congrArg List.length hbits
  obtain ⟨fetched, left, rfl, hfetched⟩ : ∃ fetched left, bytes = fetched ++ left ∧
      fetched.length = fillsNeeded s.r.offset w :=
    ⟨bytes.take (fillsNeeded s.r.offset w), bytes.drop (fillsNeeded s.r.offset w), (List.take_append_drop _ _).symm,
      by rw [List.length_take]; unfold fillsNeeded; omega⟩
  rw [List.map_append] at hanswers
  obtain ⟨t, field, hexec, hfield, hlt, hresponse, hbuffered, hleft, -, -⟩ :=
    readsReturnTheNextBits (.bits w) s fetched _ hready hw hoffset hfetched hanswers
  have henough : w ≤ (s.r.buffered ++ streamBits fetched).length := by
    unfold fillsNeeded at hfetched
    simp
    omega
  rw [streamBits_append, ← List.append_assoc] at hbits
  have htake : bitsLsb w field = bitsLsb w v := by
    calc bitsLsb w field = (s.r.buffered ++ streamBits fetched).take w := hfield
      _ = (bitsLsb w v ++ tail).take w := by rw [← hbits, List.take_append_of_le_length henough]
      _ = bitsLsb w v := List.take_left' (bitsLsb_length w v)
  have hdrop : t.r.buffered ++ streamBits left = tail := by
    calc t.r.buffered ++ streamBits left = (s.r.buffered ++ streamBits fetched).drop w ++ streamBits left := by
          rw [hbuffered]; rfl
      _ = (bitsLsb w v ++ tail).drop w := by rw [← hbits, List.drop_append_of_le_length henough]
      _ = tail := List.drop_left' (bitsLsb_length w v)
  have ht : ReaderReady t ∧ t.r.offset ≤ 32 := by
    cases hexec.symm.trans (exec_read_fills (c := .bits w) hready hw hoffset hfetched hanswers)
    obtain ⟨hf, -, hatt, hpoison⟩ := hready
    refine ⟨⟨hf, rfl, hatt, hpoison⟩, ?_⟩
    change s.r.offset - 8 * fetched.length + w ≤ 32
    unfold fillsNeeded at hfetched
    omega
  exact ⟨t, hexec, ⟨ht.1, ht.2, left, hleft, hdrop⟩, eq_and_mask_of_bitsLsb hw hlt htake ▸ hresponse⟩

/-- The fields come back one after another (R116). -/
theorem runProgram_rBits_readsAs {fields : List (Nat × Half)} {s : State} {tail : List Bool}
    (hfields : ∀ f ∈ fields, f.1 ≤ 15) (h : ReadsAs (fields.flatMap (fun f => bitsLsb f.1 f.2) ++ tail) s) :
    ∃ t, runProgram (fields.map (fun f => .rBits f.1)) s = .next t ∧
      t.responses = s.responses ++
        fields.map (fun f => okResponse .reader (f.2 &&& BitVec.ofNat 16 (2 ^ f.1 - 1))) := by
  induction fields generalizing s with
  | nil => exact ⟨s, rfl, by simp⟩
  | cons f fields ih =>
    obtain ⟨hw, hrest⟩ := List.forall_mem_cons.mp hfields
    rw [List.flatMap_cons, List.append_assoc] at h
    obtain ⟨u, hexec, hu, hresponse⟩ := exec_rBits_readsAs (hw.trans (by decide)) h
    obtain ⟨t, hrun, hresponses⟩ := ih hrest hu
    refine ⟨t, ?_, by simp [hresponses, hresponse]⟩
    rw [List.map_cons, runProgram_cons_of_exec (show Instr.WellFormed _ from hw.trans_lt (by decide)) hexec]
    exact hrun

/-- Settles O47: the accepted bytes carry the fields, and a fresh reader reads them from the front. -/
theorem roundTrip : Obligations.RoundTrip := by
  unfold Obligations.RoundTrip
  intro fields s t hfields hready hacc hempty h hok u hreader hoffset hanswers
  obtain ⟨bytes, pad, hstream, hbits⟩ := accepted_of_fields hfields hready hacc hempty h hok
  rw [hstream, List.drop_left] at hanswers
  refine runProgram_rBits_readsAs (tail := pad) hfields ⟨hreader, hoffset.le, bytes, hanswers, ?_⟩
  have hnothing : u.r.buffered = [] := by simp [← List.length_eq_zero_iff, hoffset]
  rw [hnothing, List.nil_append, hbits]

end Sys2Proof.Machine
end

section
/-! The lifecycle commands and the interval of an exposed stream (R130 to R138): O33, O55, O30, O31 and O32. -/

namespace Sys2Proof.Machine

open Sys2Proof

/-! ### The end of the interval -/

/-- The interval of R137 on the stream of a unit is open. -/
def streamExposed (u : UnitId) (s : State) : Bool :=
  match u with
  | .writer => s.sink.exposed
  | .reader => s.source.exposed

/-- A command is answered with FAULT in a closed interval, so where the stream is exposed after it the command passed
its checks and had its effect (R137, R156; log 9). -/
theorem commandTo_exposed {u : UnitId} {checks : List Check} {eff : State → State} {s t : State}
    (h : commandTo u checks eff s = .next t) (hexposed : streamExposed u t = true) :
    s.fault = 0#8 ∧ t = eff (closeInterval u s) := by
  obtain ⟨-, ⟨-, rfl⟩ | ⟨-, c, -, rfl⟩ | ⟨hf, -, rfl⟩⟩ := commandTo_cases h
  · cases u <;> cases hexposed
  · cases u <;> cases hexposed
  · exact ⟨hf, rfl⟩

/-- A command whose effect leaves the interval alone ends it (R137). -/
theorem commandTo_not_exposed {u : UnitId} {checks : List Check} {eff : State → State} {s t : State}
    (heff : ∀ x, streamExposed u (eff x) = streamExposed u x) (h : commandTo u checks eff s = .next t) :
    streamExposed u t ≠ true := by
  intro hexposed
  obtain ⟨-, rfl⟩ := commandTo_exposed h hexposed
  rw [heff] at hexposed
  cases u <;> cases hexposed

theorem writeField_exposed (w : Nat) (v : Half) (s : State) :
    streamExposed .writer (writeField w v s) = streamExposed .writer s :=
  have ⟨_, _, _, _, _, hexposed, _⟩ := writeField_frame w v s
  hexposed

theorem drainAndFlush_exposed (s : State) : streamExposed .writer (drainAndFlush s) = streamExposed .writer s :=
  have ⟨_, _, _, _, _, hexposed, _⟩ := drainAndFlush_frame s
  hexposed

theorem readField_exposed (c : ReadCmd) (s : State) :
    streamExposed .reader (readField c s) = streamExposed .reader s :=
  have ⟨_, _, _, _, _, hexposed, _⟩ := readField_frame c s
  hexposed

/-- After a command the stream of its unit is exposed only by an INNER that raised no fault (R132, R135, R137). -/
theorem exec_exposed {i : Instr} {s t : State} (h : exec i s = .next t) (hexposed : streamExposed i.unit t = true) :
    (i = .wInner ∨ i = .rInner) ∧ t.fault = 0#8 := by
  cases i with
  | wInner =>
    obtain ⟨hf, rfl⟩ := commandTo_exposed (eff := exposeSink) h hexposed
    exact ⟨.inl rfl, hf⟩
  | rInner =>
    obtain ⟨hf, rfl⟩ := commandTo_exposed (eff := exposeSource) h hexposed
    exact ⟨.inr rfl, hf⟩
  | wNew => exact absurd hexposed (commandTo_not_exposed (eff := attachWriter) (fun _ => rfl) h)
  | wBit b => exact absurd hexposed (commandTo_not_exposed (writeField_exposed 1 (bitValue b)) h)
  | wBits w v => exact absurd hexposed (commandTo_not_exposed (writeField_exposed w v) h)
  | wFlush => exact absurd hexposed (commandTo_not_exposed drainAndFlush_exposed h)
  | wUnwrap => exact absurd hexposed (commandTo_not_exposed (eff := detachWriter) (fun _ => rfl) h)
  | rNew => exact absurd hexposed (commandTo_not_exposed (eff := attachReader) (fun _ => rfl) h)
  | rBit => exact absurd hexposed (commandTo_not_exposed (readField_exposed .bit) h)
  | rBits w => exact absurd hexposed (commandTo_not_exposed (readField_exposed (.bits w)) h)
  | rPeek w => exact absurd hexposed (commandTo_not_exposed (readField_exposed (.peek w)) h)
  | rSkip w => exact absurd hexposed (commandTo_not_exposed (eff := skipBits w) (fun _ => rfl) h)
  | rReset => exact absurd hexposed (commandTo_not_exposed (eff := dropBuffer) (fun _ => rfl) h)
  | rUnwrap => exact absurd hexposed (commandTo_not_exposed (eff := detachReader) (fun _ => rfl) h)

/-- Settles O33: a command leaves the other unit's stream alone, and exposes its own only by an INNER without
a fault. -/
theorem nextCommandEndsTheInterval : Obligations.NextCommandEndsTheInterval := by
  unfold Obligations.NextCommandEndsTheInterval
  intro i s t h
  have hother := exec_onlyUnitChanged h
  have hown := exec_exposed h
  constructor
  · intro hu
    rw [hu] at hother hown
    obtain ⟨-, -, -, hsource⟩ := onlyUnitChanged_writer.mp hother
    refine ⟨by rw [hsource], fun hexposed => ?_⟩
    obtain ⟨rfl | rfl, hf⟩ := hown hexposed
    · exact ⟨rfl, hf⟩
    · cases hu
  · intro hu
    rw [hu] at hother hown
    obtain ⟨-, -, -, hsink⟩ := onlyUnitChanged_reader.mp hother
    refine ⟨by rw [hsink], fun hexposed => ?_⟩
    obtain ⟨rfl | rfl, hf⟩ := hown hexposed
    · cases hu
    · exact ⟨rfl, hf⟩

/-! ### The host on a stream -/

theorem hostMayUseSink_iff {s : State} : hostMayUseSink s = true ↔ s.sink.exposed = true ∨ s.w.attached = false := by
  simp [hostMayUseSink]

theorem hostMayUseSource_iff {s : State} :
    hostMayUseSource s = true ↔ s.source.exposed = true ∨ s.r.attached = false := by
  simp [hostMayUseSource]

/-- A host transaction on a sink the host may use takes the sink's next answer (R56, R137). -/
theorem hostUsesSink_of_answer (x : SinkTxn) {s : State} {a : SinkAnswer} {as : List SinkAnswer}
    (hmay : hostMayUseSink s = true) (hanswers : s.sink.answers = a :: as) :
    hostUsesSink x s = .next (recordSink .host x a (setSinkAnswers as s)) := by
  simp [hostUsesSink, hmay, hanswers]

/-- A host transaction on a sink that has no answer ready stays the next input (log 10). -/
theorem hostUsesSink_of_no_answer (x : SinkTxn) {s : State} (hmay : hostMayUseSink s = true)
    (hanswers : s.sink.answers = []) : hostUsesSink x s = .next (s.setInputs (.hostSink x :: s.inputs)) := by
  simp [hostUsesSink, hmay, hanswers]

/-- As `hostUsesSink_of_answer`, for a read of the source. -/
theorem hostUsesSource_of_answer {s : State} {a : SourceAnswer} {as : List SourceAnswer}
    (hmay : hostMayUseSource s = true) (hanswers : s.source.answers = a :: as) :
    hostUsesSource s = .next (recordSource .host a (setSourceAnswers as s)) := by
  simp [hostUsesSource, hmay, hanswers]

/-- As `hostUsesSink_of_no_answer`, for a read of the source. -/
theorem hostUsesSource_of_no_answer {s : State} (hmay : hostMayUseSource s = true)
    (hanswers : s.source.answers = []) : hostUsesSource s = .next (s.setInputs (.hostSource :: s.inputs)) := by
  simp [hostUsesSource, hmay, hanswers]

/-- An input taken and put back leaves the state as it was. -/
theorem setInputs_restores {s : State} {x : Input} {rest : List Input} (hin : s.inputs = x :: rest) :
    (s.setInputs rest).setInputs (x :: (s.setInputs rest).inputs) = s := by
  rw [State.setInputs_inputs, State.setInputs_setInputs, ← hin, State.setInputs_self]

/-- Settles O55: the step takes the host's transaction, which is refused on an owned stream outside the interval, is
answered by the stream's next answer, or is put back where there is none. -/
theorem hostUsesAnExposedStreamOnly : Obligations.HostUsesAnExposedStreamOnly := by
  unfold Obligations.HostUsesAnExposedStreamOnly
  constructor
  · intro s x a rest as hin
    refine ⟨fun hexposed howned => ?_, fun hmay hanswers => ?_, fun hmay hanswers => ?_⟩
    · exact step_refused_iff.mpr ⟨.hostSink x, by rw [hin]; rfl, .sinkNotExposed howned hexposed⟩
    · exact (step_of_input hin).trans (hostUsesSink_of_answer x (hostMayUseSink_iff.mpr hmay) hanswers)
    · have hwaits := hostUsesSink_of_no_answer x (s := s.setInputs rest) (hostMayUseSink_iff.mpr hmay) hanswers
      rw [step_of_input hin, takeInput, hwaits, setInputs_restores hin]
  · intro s a rest as hin
    refine ⟨fun hexposed howned => ?_, fun hmay hanswers => ?_, fun hmay hanswers => ?_⟩
    · exact step_refused_iff.mpr ⟨.hostSource, by rw [hin]; rfl, .sourceNotExposed howned hexposed⟩
    · exact (step_of_input hin).trans (hostUsesSource_of_answer (hostMayUseSource_iff.mpr hmay) hanswers)
    · have hwaits := hostUsesSource_of_no_answer (s := s.setInputs rest) (hostMayUseSource_iff.mpr hmay) hanswers
      rw [step_of_input hin, takeInput, hwaits, setInputs_restores hin]

/-! ### NEW, INNER and UNWRAP -/

theorem alreadyAttachedCheck_pass {attached : Bool} :
    firstFault [alreadyAttachedCheck attached] = none ↔ attached = false := by
  simp [firstFault_eq_none_iff, alreadyAttachedCheck]

theorem notAttachedCheck_pass {attached : Bool} :
    firstFault [notAttachedCheck attached] = none ↔ attached = true := by
  simp [firstFault_eq_none_iff, notAttachedCheck]

/-- A command of the writer that makes one attachment check only (R131 to R133), where that passes. -/
theorem writerLifecycle_pass {check : Check} {eff : State → State} {s : State} (hf : s.fault = 0#8)
    (hidle : s.w.busy = none) (hpass : firstFault [check] = none) :
    commandTo .writer [check] eff s = .next (eff (closeInterval .writer s)) :=
  commandTo_pass (by simp [unitIsBusy, hidle]) hf hpass

/-- As `writerLifecycle_pass`, for the reader (R134 to R136). -/
theorem readerLifecycle_pass {check : Check} {eff : State → State} {s : State} (hf : s.fault = 0#8)
    (hidle : s.r.busy = none) (hpass : firstFault [check] = none) :
    commandTo .reader [check] eff s = .next (eff (closeInterval .reader s)) :=
  commandTo_pass (by simp [unitIsBusy, hidle]) hf hpass

/-- Settles O30: a detached unit passes the check of NEW, whose effect writes the whole unit. -/
theorem newAttachesAFreshUnit : Obligations.NewAttachesAFreshUnit := by
  unfold Obligations.NewAttachesAFreshUnit
  constructor
  · intro s hf hidle hdetached
    exact writerLifecycle_pass (eff := attachWriter) hf hidle (alreadyAttachedCheck_pass.mpr hdetached)
  · intro s hf hidle hdetached
    exact readerLifecycle_pass (eff := attachReader) hf hidle (alreadyAttachedCheck_pass.mpr hdetached)

/-- Settles O31: an attached unit passes the check of INNER, failed or poisoned or not, and the interval that the
command ended is opened again. -/
theorem innerExposesTheStream : Obligations.InnerExposesTheStream := by
  unfold Obligations.InnerExposesTheStream
  constructor
  · intro s hf hidle hattached
    exact writerLifecycle_pass (eff := exposeSink) hf hidle (notAttachedCheck_pass.mpr hattached)
  · intro s hf hidle hattached
    exact readerLifecycle_pass (eff := exposeSource) hf hidle (notAttachedCheck_pass.mpr hattached)

/-- Settles O32: an attached unit passes the check of UNWRAP, whose effect clears the attachment and runs no
transaction. -/
theorem unwrapDetachesWithoutFlushing : Obligations.UnwrapDetachesWithoutFlushing := by
  unfold Obligations.UnwrapDetachesWithoutFlushing
  constructor
  · intro s hf hidle hattached
    exact writerLifecycle_pass (eff := detachWriter) hf hidle (notAttachedCheck_pass.mpr hattached)
  · intro s hf hidle hattached
    exact readerLifecycle_pass (eff := detachReader) hf hidle (notAttachedCheck_pass.mpr hattached)

end Sys2Proof.Machine
end

section
/-! The fault a command raises or finds latched (R150 to R156): O11, O12, O13, O15 and O16. -/

namespace Sys2Proof.Machine

open Sys2Proof

/-! ### The checks and the effect of a command -/

/-- The checks of R156, steps 3 to 6, that a command makes, in order. -/
def commandChecks (i : Instr) (s : State) : List Check :=
  match i with
  | .wNew => [alreadyAttachedCheck s.w.attached]
  | .wBit _ | .wFlush => writerDataChecks s
  | .wBits w _ => writerDataChecks s ++ [widthCheck w Config.wMaxWidth, headroomCheck s.w.filled w]
  | .wInner | .wUnwrap => [notAttachedCheck s.w.attached]
  | .rNew => [alreadyAttachedCheck s.r.attached]
  | .rBit => readerDataChecks s
  | .rBits w | .rPeek w => readerDataChecks s ++ [widthCheck w Config.rMaxWidth]
  | .rSkip w => readerDataChecks s ++ [skipCheck s.r.offset w]
  | .rReset | .rInner | .rUnwrap => [notAttachedCheck s.r.attached]

/-- The effect of a command whose checks pass (R156 step 7). -/
def commandEffect : Instr → State → State
  | .wNew => attachWriter
  | .wBit b => writeField 1 (bitValue b)
  | .wBits w v => writeField w v
  | .wFlush => drainAndFlush
  | .wInner => exposeSink
  | .wUnwrap => detachWriter
  | .rNew => attachReader
  | .rBit => readField .bit
  | .rBits w => readField (.bits w)
  | .rPeek w => readField (.peek w)
  | .rSkip w => skipBits w
  | .rReset => dropBuffer
  | .rInner => exposeSource
  | .rUnwrap => detachReader

/-- A command is issued to its unit with its checks and its effect (R69, R156). -/
theorem exec_eq_checks_effect (i : Instr) (s : State) :
    exec i s = commandTo i.unit (commandChecks i s) (commandEffect i) s := by
  cases i <;> rfl

/-- No effect writes `FAULT`: only a check that applies does (R150, R155). -/
theorem commandEffect_fault (i : Instr) (s : State) : (commandEffect i s).fault = s.fault := by
  cases i with
  | wBit b => obtain ⟨-, -, hfault, -⟩ := writeField_frame 1 (bitValue b) s; exact hfault
  | wBits w v => obtain ⟨-, -, hfault, -⟩ := writeField_frame w v s; exact hfault
  | wFlush => obtain ⟨-, -, hfault, -⟩ := drainAndFlush_frame s; exact hfault
  | rBit => obtain ⟨-, -, hfault, -⟩ := readField_frame .bit s; exact hfault
  | rBits w => obtain ⟨-, -, hfault, -⟩ := readField_frame (.bits w) s; exact hfault
  | rPeek w => obtain ⟨-, -, hfault, -⟩ := readField_frame (.peek w) s; exact hfault
  | wNew | wInner | wUnwrap | rNew | rSkip _ | rReset | rInner | rUnwrap => rfl

/-! ### The code of the first check that applies -/

/-- The code a check raises, if it applies. -/
def Check.fault (c : Check) : Option Byte := if c.applies then some c.code.code else none

@[simp] theorem Check.fault_mk (applies : Bool) (code : FaultCode) :
    Check.fault { applies := applies, code := code } = if applies then some code.code else none := rfl

/-- The code of the first check that applies. -/
def firstFaultCode (checks : List Check) : Option Byte := (firstFault checks).map FaultCode.code

@[simp] theorem firstFaultCode_nil : firstFaultCode [] = none := rfl

@[simp] theorem firstFaultCode_cons (c : Check) (cs : List Check) :
    firstFaultCode (c :: cs) = c.fault.or (firstFaultCode cs) := by
  cases h : c.applies <;> simp [firstFaultCode, firstFault, Check.fault, h]

@[simp] theorem notAttachedCheck_fault (attached : Bool) :
    (notAttachedCheck attached).fault = if attached then none else some 0x02#8 := by
  cases attached <;> rfl

@[simp] theorem alreadyAttachedCheck_fault (attached : Bool) :
    (alreadyAttachedCheck attached).fault = if attached then some 0x03#8 else none := rfl

@[simp] theorem widthCheck_fault (w max : Nat) :
    (widthCheck w max).fault = if w > max then some 0x04#8 else none := by
  simp [widthCheck, FaultCode.code]

@[simp] theorem headroomCheck_fault (filled w : Nat) :
    (headroomCheck filled w).fault = if filled + w > 32 then some 0x05#8 else none := by
  simp [headroomCheck, FaultCode.code]

@[simp] theorem skipCheck_fault (offset w : Nat) :
    (skipCheck offset w).fault = if w > 32 - offset then some 0x06#8 else none := by
  simp [skipCheck, FaultCode.code]

/-- The common checks of the writer's data commands are steps 3 and 4 of R156. -/
@[simp] theorem firstFaultCode_writerDataChecks (s : State) (more : List Check) :
    firstFaultCode (writerDataChecks s ++ more) =
      (if s.w.attached then none else some 0x02#8).or
        ((if s.w.failed then some 0x07#8 else none).or (firstFaultCode more)) := by
  simp [writerDataChecks, FaultCode.code]

/-- The common checks of the reader's data commands are steps 3 and 4 of R156. -/
@[simp] theorem firstFaultCode_readerDataChecks (s : State) (more : List Check) :
    firstFaultCode (readerDataChecks s ++ more) =
      (if s.r.attached then none else some 0x02#8).or
        ((if s.config.readerFailState = .poison ∧ s.r.poisoned = true then some 0x08#8 else none).or
          (firstFaultCode more)) := by
  simp [readerDataChecks, readerPoisonedNow, FaultCode.code]

/-- The checks the model makes of a command raise the fault read off R156, steps 3 to 6. -/
theorem firstFaultCode_commandChecks (i : Instr) (s : State) :
    firstFaultCode (commandChecks i s) = commandFault i s := by
  cases i with
  | wBit _ | wFlush => exact firstFaultCode_writerDataChecks s []
  | rBit => exact firstFaultCode_readerDataChecks s []
  | wBits _ _ | rBits _ | rPeek _ | rSkip _ | wNew | wInner | wUnwrap | rNew | rReset | rInner | rUnwrap =>
    simp [commandChecks, commandFault, attachmentFault, unitFailureFault, widthFault, roomFault]

/-- No check applies exactly when R156 gives no fault. -/
theorem commandChecks_pass {i : Instr} {s : State} :
    firstFault (commandChecks i s) = none ↔ commandFault i s = none := by
  rw [← firstFaultCode_commandChecks, firstFaultCode, Option.map_eq_none_iff]

/-- The fault R156 gives is that of the first check that applies. -/
theorem commandChecks_fail {i : Instr} {s : State} {code : Byte} (h : commandFault i s = some code) :
    ∃ c : FaultCode, firstFault (commandChecks i s) = some c ∧ c.code = code := by
  rwa [← firstFaultCode_commandChecks, firstFaultCode, Option.map_eq_some_iff] at h

/-! ### No fault latched -/

@[simp] theorem closeInterval_fault (u : UnitId) (s : State) : (closeInterval u s).fault = s.fault := by
  cases u <;> rfl

/-- Settles O11: the first check that applies raises the fault of R156, in a state whose interval is closed. -/
theorem firstFailingCheckRaisesItsFault : Obligations.FirstFailingCheckRaisesItsFault := by
  unfold Obligations.FirstFailingCheckRaisesItsFault
  intro i s code hidle hf hfault
  obtain ⟨c, hfails, rfl⟩ := commandChecks_fail hfault
  rw [exec_eq_checks_effect, commandTo_fault hidle hf hfails, ← responseWord_fault,
    ← closeInterval_responses (u := i.unit)]
  rfl

/-- Settles O12: the command has its effect, and no effect writes `FAULT`. -/
theorem passingChecksRaiseNoFault : Obligations.PassingChecksRaiseNoFault := by
  unfold Obligations.PassingChecksRaiseNoFault
  intro i s t hf hpass h
  have heffect := commandTo_pass (eff := commandEffect i) (exec_next_unit_idle h) hf (commandChecks_pass.mpr hpass)
  cases ((exec_eq_checks_effect i s).trans heffect).symm.trans h
  rw [commandEffect_fault, closeInterval_fault, hf]

/-! ### A fault latched -/

/-- A word that selects no unit is illegal (R62, R64). -/
theorem decode_of_no_unit {word : Word} (hu : selectUnit word = none) : ∃ why, decode word = .illegal why := by
  cases hd : decode word with
  | instr i => simp [selectUnit_of_decode hd] at hu
  | illegal why => exact ⟨why, rfl⟩

/-- A word to a block whose fault is latched is answered with it, the unit it goes to being idle (R155, R156 step 1); it
ends the interval of that unit (log 9). -/
theorem issueWord_latched {word : Word} {s : State} (hf : s.fault ≠ 0#8)
    (hidle : ∀ u, selectUnit word = some u → unitIsBusy u s = false) :
    ∃ y, issueWord word s = .next (respondFault (selectUnit word) y) ∧ (y = s ∨ ∃ u, y = closeInterval u s) := by
  cases hu : selectUnit word with
  | none =>
    obtain ⟨why, hd⟩ := decode_of_no_unit hu
    exact ⟨s, by simp [issueWord_of_illegal hd, hu, illegalWord, afterChecks, hf], .inl rfl⟩
  | some u =>
    obtain ⟨checks, eff, hissue⟩ := issueWord_of_unit hu s
    exact ⟨_, hissue.trans (commandTo_latched (hidle u hu) hf), .inr ⟨u, rfl⟩⟩

/-- The step on an answer to the waiting writer, with a fault latched: the command ends with it (log 8). -/
theorem step_sinkAnswer_latched {s : State} {p : WriterWait} {a : SinkAnswer} {rest : List Input}
    (hin : s.inputs = .sinkAnswer a :: rest) (hf : s.fault ≠ 0#8) (hwaits : s.w.busy = some p)
    (hnone : s.sink.answers = []) :
    step s = .next (setSinkAnswers [] (endWriterFaulted (recordSink .unit (p.request s.w) a (s.setInputs rest)))) := by
  rw [step_of_input hin, takeInput, runWriter, setSinkAnswers_sink, pumpWriter_setSinkAnswers]
  simp only [State.setInputs_sink, hnone, List.nil_append]
  rw [pumpWriter_faulted (s := s.setInputs rest) hf hwaits]
  rfl

/-- As `step_sinkAnswer_latched`, for the reader. -/
theorem step_sourceAnswer_latched {s : State} {c : ReadCmd} {a : SourceAnswer} {rest : List Input}
    (hin : s.inputs = .sourceAnswer a :: rest) (hf : s.fault ≠ 0#8) (hwaits : s.r.busy = some c)
    (hnone : s.source.answers = []) :
    step s = .next (setSourceAnswers [] (endReaderFaulted (recordSource .unit a (s.setInputs rest)))) := by
  rw [step_of_input hin, takeInput, runReader, setSourceAnswers_source, pumpReader_setSourceAnswers]
  simp only [State.setInputs_source, hnone, List.nil_append]
  rw [pumpReader_faulted (s := s.setInputs rest) hf hwaits]

/-- Settles O13: a word is answered by the latched-fault check, and a waiting command ends at its answer; the frames
are read off the next states. -/
theorem latchedFaultAnswersEveryWord : Obligations.LatchedFaultAnswersEveryWord := by
  unfold Obligations.LatchedFaultAnswersEveryWord
  refine ⟨fun s word rest hin hf hidle => ?_, fun s p a rest hin hf hwaits hnone => ?_,
    fun s c a rest hin hf hwaits hnone => ?_⟩
  · obtain ⟨y, hanswered, hy⟩ := issueWord_latched (s := s.setInputs rest) hf hidle
    refine ⟨_, (step_of_command hin).trans hanswered, ?_⟩
    rw [← responseWord_fault]
    obtain rfl | ⟨u, rfl⟩ := hy
    · simp
    · cases u <;> simp
  · rw [step_sinkAnswer_latched hin hf hwaits hnone, ← responseWord_fault, ← hnone]
    rfl
  · rw [step_sourceAnswer_latched hin hf hwaits hnone, ← responseWord_fault, ← hnone]
    rfl

/-! ### A failed writer -/

/-- A data command of a failed writer fails the check of R153 first, whatever its width (R156 step 4). -/
theorem commandFault_failedWriter {i : Instr} {s : State} (hatt : s.w.attached = true) (hfailed : s.w.failed = true)
    (hi : i = .wFlush ∨ (∃ b, i = .wBit b) ∨ ∃ w v, i = .wBits w v) : commandFault i s = some 0x07#8 := by
  obtain rfl | ⟨b, rfl⟩ | ⟨w, v, rfl⟩ := hi <;> simp [commandFault, attachmentFault, unitFailureFault, hatt, hfailed]

/-- Settles O15: a data command raises the fault of its failure check; the lifecycle commands make no such check, and
NEW writes the whole unit. -/
theorem failedWriterIsUnusable : Obligations.FailedWriterIsUnusable := by
  unfold Obligations.FailedWriterIsUnusable
  intro s hf hidle hatt hfailed
  refine ⟨fun i hi => ?_, innerExposesTheStream.1 s hf hidle hatt, ?_⟩
  · have hunit : i.unit = .writer := by obtain rfl | ⟨b, rfl⟩ | ⟨w, v, rfl⟩ := hi <;> rfl
    rw [firstFailingCheckRaisesItsFault i s 0x07#8 (by simp [hunit, unitIsBusy, hidle]) hf
      (commandFault_failedWriter hatt hfailed hi), hunit]
    rfl
  · exact ⟨_, _, unwrapDetachesWithoutFlushing.1 s hf hidle hatt, rfl, hfailed, hf,
      newAttachesAFreshUnit.1 _ hf hidle rfl, rfl, rfl⟩

/-! ### A poisoned reader -/

/-- A data read of a poisoned reader in POISON mode fails the check of R154 first, whatever its width (R156 step 4). -/
theorem commandFault_poisonedReader {i : Instr} {s : State} (hatt : s.r.attached = true)
    (hpoisoned : s.r.poisoned = true) (hmode : s.config.readerFailState = .poison)
    (hi : i = .rBit ∨ (∃ w, i = .rBits w) ∨ (∃ w, i = .rPeek w) ∨ ∃ w, i = .rSkip w) :
    commandFault i s = some 0x08#8 := by
  obtain rfl | ⟨w, rfl⟩ | ⟨w, rfl⟩ | ⟨w, rfl⟩ := hi <;>
    simp [commandFault, attachmentFault, unitFailureFault, hatt, hpoisoned, hmode]

/-- Under STEP_ORDER no check raises READER_POISONED (R154). -/
theorem commandFault_stepOrder {i : Instr} {s : State} (hmode : s.config.readerFailState = .stepOrder) :
    commandFault i s ≠ some 0x08#8 := by
  have hattachment : attachmentFault i s ≠ some 0x08#8 := by
    unfold attachmentFault; split <;> split <;> simp
  have hfailure : unitFailureFault i s ≠ some 0x08#8 := by
    unfold unitFailureFault; split <;> simp [hmode]
  have hwidth : widthFault i ≠ some 0x08#8 := by
    unfold widthFault; split <;> simp
  have hroom : roomFault i s ≠ some 0x08#8 := by
    unfold roomFault; split <;> simp
  simp [commandFault, Option.or_eq_some_iff, hattachment, hfailure, hwidth, hroom]

/-- Settles O16: a data read raises the fault of its poison check; the lifecycle commands make no such check; under
STEP_ORDER no check raises it, and no effect does. -/
theorem poisonedReaderFaultsOnlyInPoisonMode : Obligations.PoisonedReaderFaultsOnlyInPoisonMode := by
  unfold Obligations.PoisonedReaderFaultsOnlyInPoisonMode
  refine ⟨fun s hf hidle hatt hpoisoned hmode => ⟨fun i hi => ?_, ?_, ?_, ?_⟩, fun i s t hmode hf h => ?_⟩
  · have hunit : i.unit = .reader := by obtain rfl | ⟨w, rfl⟩ | ⟨w, rfl⟩ | ⟨w, rfl⟩ := hi <;> rfl
    rw [firstFailingCheckRaisesItsFault i s 0x08#8 (by simp [hunit, unitIsBusy, hidle]) hf
      (commandFault_poisonedReader hatt hpoisoned hmode hi), hunit]
    rfl
  · exact ⟨_, readerResetDropsTheBuffer s hf hidle hatt, hf, rfl, rfl⟩
  · exact ⟨_, innerExposesTheStream.2 s hf hidle hatt, hf, rfl, rfl⟩
  · exact ⟨_, _, unwrapDetachesWithoutFlushing.2 s hf hidle hatt, hf, rfl,
      newAttachesAFreshUnit.2 _ hf hidle rfl, hf, rfl⟩
  · cases hfault : commandFault i s with
    | none => simp [passingChecksRaiseNoFault i s t hf hfault h]
    | some code =>
      have hlatched := firstFailingCheckRaisesItsFault i s code (exec_next_unit_idle h) hf hfault
      cases hlatched.symm.trans h
      rintro rfl
      exact commandFault_stepOrder hmode hfault

end Sys2Proof.Machine
end

section
/-! The transactions of one command (R25, R103, R182), a skip after a peek (R174) and the power-on reset (R170):
O29, O42 and O2. -/

namespace Sys2Proof.Machine

open Sys2Proof

/-! ### At the sink -/

/-- The transactions a wait stands for while `filled` bits are buffered: the one in flight and those that follow it
in its command (R83, R86). -/
def WriterWait.remaining (p : WriterWait) (filled : Nat) : Nat :=
  match p with
  | .emission => 1
  | .drain => (filled - 1) / 8 + 2
  | .flush => 1

/-- The transactions of the writer's command that have not been answered. -/
def WriterUnit.remaining (w : WriterUnit) : Nat := w.busy.elim 0 (·.remaining w.filled)

theorem WriterWait.remaining_pos (p : WriterWait) (filled : Nat) : 1 ≤ p.remaining filled := by
  cases p <;> simp [WriterWait.remaining]

theorem WriterUnit.remaining_of_busy {w : WriterUnit} {p : WriterWait} (h : w.busy = some p) :
    w.remaining = p.remaining w.filled := by
  simp [WriterUnit.remaining, h]

/-- The transaction in flight is one of those that remain. -/
theorem WriterUnit.inFlight_le_remaining (w : WriterUnit) : (if w.busy.isSome then 1 else 0) ≤ w.remaining := by
  cases hb : w.busy with
  | none => exact Nat.zero_le _
  | some p =>
    rw [WriterUnit.remaining_of_busy hb]
    exact p.remaining_pos w.filled

/-- The request at the head of W.FLUSH's loop and those after: a byte for every 8 bits begun, then the flush (R86). -/
theorem nextDrain_remaining (filled : Nat) : (nextDrain filled).remaining filled = (filled + 7) / 8 + 1 := by
  unfold nextDrain
  split <;> simp only [WriterWait.remaining] <;> omega

/-- Each answer takes one off the transactions that remain (R83, R86, R87). -/
theorem writerAnswered_remaining {p : WriterWait} {s : State} (a : SinkAnswer) (hb : s.w.busy = some p) :
    (writerAnswered p a s).w.remaining + 1 ≤ s.w.remaining := by
  have hpos := p.remaining_pos s.w.filled
  rw [WriterUnit.remaining_of_busy hb]
  by_cases hf : s.fault = 0#8
  · rw [writerAnswered_clear hf]
    cases a with
    | ioError kept => exact hpos
    | ok =>
      cases p with
      | emission => exact hpos
      | flush => exact hpos
      | drain =>
        have hnext : (writerOk .drain (recordSink .unit (WriterWait.request .drain s.w) .ok s)).w.remaining =
            (s.w.filled - min 8 s.w.filled + 7) / 8 + 1 := nextDrain_remaining _
        dsimp only
        rw [hnext]
        simp only [WriterWait.remaining]
        omega
  · rw [writerAnswered_faulted hf]
    exact hpos

/-- A pump logs no more transactions than remained. -/
theorem pumpWriter_remaining (as : List SinkAnswer) (s : State) :
    (pumpWriter as s).sink.log.length + (pumpWriter as s).w.remaining ≤ s.sink.log.length + s.w.remaining := by
  refine pumpWriter_induct (P := fun t => t.sink.log.length + t.w.remaining ≤ s.sink.log.length + s.w.remaining)
    (fun _ _ h => h) (fun p a t hb h => ?_) as s le_rfl
  obtain ⟨-, -, -, -, -, hsink⟩ := writerAnswered_frame p a t
  have hanswer := writerAnswered_remaining a hb
  simp only [hsink, List.length_append, List.length_singleton]
  omega

/-- From `s` to `t` a command of unit `u` issued at most `n` sink transactions, those answered and the one in flight
together (R182). -/
def SinkBounded (u : UnitId) (n : Nat) (s t : State) : Prop :=
  t.sink.log.length + (if t.w.busy.isSome ∧ u = .writer then 1 else 0) ≤ s.sink.log.length + n

theorem SinkBounded.of_log_eq {u : UnitId} {n : Nat} {s t : State} (hlog : t.sink.log = s.sink.log)
    (hidle : u = .writer → t.w.busy = none) : SinkBounded u n s t := by
  have hnone : ¬ (t.w.busy.isSome ∧ u = .writer) := fun ⟨hb, hu⟩ => by simp [hidle hu] at hb
  simp [SinkBounded, hlog, hnone]

/-- A command that starts a transaction issues at most those that then remain. -/
theorem runWriter_setW_sinkBounded {n : Nat} {s : State} {w : WriterUnit} (h : w.remaining ≤ n) :
    SinkBounded .writer n s (runWriter (s.setW w)) := by
  have hpump : (runWriter (s.setW w)).sink.log.length + (runWriter (s.setW w)).w.remaining ≤
      s.sink.log.length + w.remaining := pumpWriter_remaining s.sink.answers (s.setW w)
  have hflight := (runWriter (s.setW w)).w.inFlight_le_remaining
  simp only [SinkBounded, and_true]
  omega

/-- R83 issues at most its emission. -/
theorem writeField_sinkBounded (w : Nat) (v : Half) {s : State} (hidle : s.w.busy = none) :
    SinkBounded .writer 1 s (writeField w v s) := by
  by_cases h : s.w.filled + w < 16
  · rw [writeField_below h]
    exact .of_log_eq rfl fun _ => hidle
  · rw [writeField_atThreshold (by omega)]
    exact runWriter_setW_sinkBounded le_rfl

/-- R86 drains at most two bytes of a writer in range and forwards the flush (R25). -/
theorem drainAndFlush_sinkBounded {s : State} (hfilled : s.w.filled ≤ 15) :
    SinkBounded .writer 3 s (drainAndFlush s) := by
  refine runWriter_setW_sinkBounded ?_
  rw [WriterUnit.remaining_of_busy rfl, nextDrain_remaining]
  omega

/-- A command of the writer issues what its effect does: a fault issues nothing (R155). -/
theorem commandTo_sinkBounded {n : Nat} {checks : List Check} {eff : State → State} {s t : State}
    (heff : firstFault checks = none → s.fault = 0#8 → s.w.busy = none →
      SinkBounded .writer n s (eff (closeInterval .writer s)))
    (h : commandTo .writer checks eff s = .next t) : SinkBounded .writer n s t := by
  obtain ⟨hfree, hcases⟩ := commandTo_cases h
  have hidle : s.w.busy = none := by simpa [unitIsBusy] using hfree
  obtain ⟨-, rfl⟩ | ⟨-, c, -, rfl⟩ | ⟨hf, hpass, rfl⟩ := hcases
  · exact .of_log_eq rfl fun _ => hidle
  · exact .of_log_eq rfl fun _ => hidle
  · exact heff hpass hf hidle

/-- The sink transactions a command may issue (R182). -/
def sinkBound : Instr → Nat
  | .wBits _ _ => 1
  | .wBit _ => 1
  | .wFlush => 3
  | _ => 0

theorem exec_sinkBounded {i : Instr} {s t : State} (hs : s.Inv) (h : exec i s = .next t) :
    SinkBounded i.unit (sinkBound i) s t := by
  obtain ⟨-, hreader, -⟩ := commandsLeaveTheOtherUnitAlone i s t h
  cases i with
  | wBit b =>
    exact commandTo_sinkBounded
      (fun _ _ hidle => writeField_sinkBounded 1 (bitValue b) (s := closeInterval .writer s) hidle) h
  | wBits w v =>
    exact commandTo_sinkBounded
      (fun _ _ hidle => writeField_sinkBounded w v (s := closeInterval .writer s) hidle) h
  | wFlush =>
    refine commandTo_sinkBounded (fun hpass hf hidle => ?_) h
    obtain ⟨-, hfailed, -⟩ := writerDataChecks_pass (more := []) |>.mp hpass
    exact drainAndFlush_sinkBounded (s := closeInterval .writer s) (hs.filledIdle hf hfailed hidle)
  | wNew => exact commandTo_sinkBounded (eff := attachWriter) (fun _ _ _ => .of_log_eq rfl fun _ => rfl) h
  | wInner => exact commandTo_sinkBounded (eff := exposeSink) (fun _ _ hidle => .of_log_eq rfl fun _ => hidle) h
  | wUnwrap => exact commandTo_sinkBounded (eff := detachWriter) (fun _ _ hidle => .of_log_eq rfl fun _ => hidle) h
  | rNew | rBit | rBits _ | rPeek _ | rSkip _ | rReset | rInner | rUnwrap =>
    obtain ⟨-, hsink⟩ := hreader rfl
    exact .of_log_eq (by rw [hsink]) nofun

/-! ### At the source -/

/-- From `s` to `t` a command of unit `u` issued at most `n` source reads, those answered and the one in flight together
(R182). -/
def SourceBounded (u : UnitId) (n : Nat) (s t : State) : Prop :=
  t.source.log.length + (if t.r.busy.isSome ∧ u = .reader then 1 else 0) ≤ s.source.log.length + n

theorem SourceBounded.of_log_eq {u : UnitId} {n : Nat} {s t : State} (hlog : t.source.log = s.source.log)
    (hidle : u = .reader → t.r.busy = none) : SourceBounded u n s t := by
  have hnone : ¬ (t.r.busy.isSome ∧ u = .reader) := fun ⟨hb, hu⟩ => by simp [hidle hu] at hb
  simp [SourceBounded, hlog, hnone]

/-- The last of the fills a read begins. -/
theorem beginsFills_snoc {offset w n : Nat} (h : BeginsFills offset w n) (hfew : 32 - (offset - 8 * n) < w) :
    BeginsFills offset w (n + 1) :=
  Nat.forall_lt_succ_right.mpr ⟨h, hfew⟩

/-- A legal read begins at most two fills: the third would start with 16 bits buffered (R103). -/
theorem BeginsFills.le_two {offset w n : Nat} (h : BeginsFills offset w n) (hoffset : offset ≤ 32) (hw : w ≤ 16) :
    n ≤ 2 := by
  by_contra hmany
  have hthird := h 2 (by omega)
  omega

/-- A legal read issues at most two reads of the source, however it ends (R103). -/
theorem ReadEnds.sourceBounded {c : ReadCmd} {s t : State} {answers : List SourceAnswer} (h : ReadEnds c s answers t)
    (hidle : s.r.busy = none) (hoffset : s.r.offset ≤ 32) (hw : c.width ≤ 16) : SourceBounded .reader 2 s t := by
  cases h with
  | @waits bytes hfills hfew =>
    have htwo := (beginsFills_snoc hfills hfew).le_two hoffset hw
    simp [SourceBounded, State.afterFills]
    omega
  | @fails bytes a rest hfills hfew ha =>
    have htwo := (beginsFills_snoc hfills hfew).le_two hoffset hw
    simp [SourceBounded, State.afterFailedFill, State.afterFills, ReaderUnit.afterFills, hidle]
    omega
  | @finishes bytes rest hfills henough =>
    have htwo := hfills.le_two hoffset hw
    simp [SourceBounded, State.afterFills]
    omega

/-- As `commandTo_sinkBounded`, for the reader. -/
theorem commandTo_sourceBounded {n : Nat} {checks : List Check} {eff : State → State} {s t : State}
    (heff : firstFault checks = none → s.fault = 0#8 → s.r.busy = none →
      SourceBounded .reader n s (eff (closeInterval .reader s)))
    (h : commandTo .reader checks eff s = .next t) : SourceBounded .reader n s t := by
  obtain ⟨hfree, hcases⟩ := commandTo_cases h
  have hidle : s.r.busy = none := by simpa [unitIsBusy] using hfree
  obtain ⟨-, rfl⟩ | ⟨-, c, -, rfl⟩ | ⟨hf, hpass, rfl⟩ := hcases
  · exact .of_log_eq rfl fun _ => hidle
  · exact .of_log_eq rfl fun _ => hidle
  · exact heff hpass hf hidle

/-- A read whose width is checked issues at most two reads of the source (R29, R103). -/
theorem readField_sourceBounded {c : ReadCmd} {s t : State} {checks : List Check} (hs : s.Inv)
    (hwidth : firstFault checks = none → c.width ≤ 16)
    (h : commandTo .reader checks (readField c) s = .next t) : SourceBounded .reader 2 s t := by
  refine commandTo_sourceBounded (fun hpass hf hidle => ?_) h
  obtain ⟨-, hoffset⟩ := hs.offsetRange
  have hends := (readField_eq_iff (c := c) (s := closeInterval .reader s) hf hidle).mp rfl
  exact hends.sourceBounded hidle hoffset (hwidth hpass)

/-- The range of R.BITS and R.PEEK, where their checks pass (R105, R106). -/
theorem readChecks_width {s : State} {w : Nat}
    (h : firstFault (readerDataChecks s ++ [widthCheck w Config.rMaxWidth]) = none) : w ≤ 16 := by
  obtain ⟨-, -, hrange⟩ := readerDataChecks_pass.mp h
  exact widthCheck_applies.mp ((firstFault_eq_none_iff _).mp hrange _ List.mem_cons_self)

/-- The source reads a command may issue (R182). -/
def sourceBound : Instr → Nat
  | .rBits _ => 2
  | .rPeek _ => 2
  | .rBit => 2
  | _ => 0

theorem exec_sourceBounded {i : Instr} {s t : State} (hs : s.Inv) (h : exec i s = .next t) :
    SourceBounded i.unit (sourceBound i) s t := by
  obtain ⟨hwriter, -⟩ := commandsLeaveTheOtherUnitAlone i s t h
  cases i with
  | rBit => exact readField_sourceBounded (c := .bit) hs (fun _ => by decide) h
  | rBits w => exact readField_sourceBounded (c := .bits w) hs readChecks_width h
  | rPeek w => exact readField_sourceBounded (c := .peek w) hs readChecks_width h
  | rNew => exact commandTo_sourceBounded (eff := attachReader) (fun _ _ _ => .of_log_eq rfl fun _ => rfl) h
  | rSkip w => exact commandTo_sourceBounded (eff := skipBits w) (fun _ _ hidle => .of_log_eq rfl fun _ => hidle) h
  | rReset => exact commandTo_sourceBounded (eff := dropBuffer) (fun _ _ hidle => .of_log_eq rfl fun _ => hidle) h
  | rInner => exact commandTo_sourceBounded (eff := exposeSource) (fun _ _ hidle => .of_log_eq rfl fun _ => hidle) h
  | rUnwrap => exact commandTo_sourceBounded (eff := detachReader) (fun _ _ hidle => .of_log_eq rfl fun _ => hidle) h
  | wNew | wBit _ | wBits _ _ | wFlush | wInner | wUnwrap =>
    obtain ⟨-, hsource⟩ := hwriter rfl
    exact .of_log_eq (by rw [hsource]) nofun

/-! ### The obligations -/

/-- Settles O29: at the sink the transactions that remain go down with each answer; at the source a read begins at most
two fills. -/
theorem transactionsPerCommandAreBounded : Obligations.TransactionsPerCommandAreBounded := by
  unfold Obligations.TransactionsPerCommandAreBounded
  exact fun i s t hs h => ⟨exec_sinkBounded hs h, exec_sourceBounded hs h⟩

/-- Settles O42: after the peek the reader is ready and holds `w` bits, so the skip stays within the buffer. -/
theorem skipAfterPeekCannotFault : Obligations.SkipAfterPeekCannotFault := by
  unfold Obligations.SkipAfterPeekCannotFault
  intro s t w n d _ h hok hn
  obtain ⟨hready, -, -, hbuffered, -⟩ := exec_rPeek_ok h hok
  exact ⟨_, skipAdvancesWithoutFetching t n hready (hn.trans hbuffered), hready.1, rfl, rfl, rfl⟩

/-- Settles O2: the step takes the input, and the reset writes every element of the block. -/
theorem powerOnResetsTheBlockFromAnyState : Obligations.PowerOnResetsTheBlockFromAnyState := by
  unfold Obligations.PowerOnResetsTheBlockFromAnyState
  intro s rest hin
  rw [step_of_input hin]
  rfl

end Sys2Proof.Machine
end
